-- ==== Sys2Proof/Word.lean ====
section
/-! DEFINITION. The value types of the block: bytes, the 32-bit read value, the register width, line identifiers. -/

namespace Sys2Proof

/-- 00_scope.md R8: a byte is 8 bits, bit 0 the least significant. -/
abbrev Byte := BitVec 8

/-- 20_memory.md R32: a multi-byte value is held as an unsigned 32-bit value. -/
abbrev Word := BitVec 32

/-- 10_state.md R14: the register width in bytes has exactly the five values 0 to 4. -/
abbrev Width := Fin 5

/-- 10_state.md R17: the identifier of a chip-select line. Nothing is computed from it but equality. -/
abbrev LineId := Nat

end Sys2Proof
end

