-- ==== Sys2Proof/Config.lean ====
section
/-! DEFINITION. What is fixed for one block: the parameters of 00_scope.md R7, and the values the spec leaves free (opaque, without a body). -/

namespace Sys2Proof

/-- The bit order of the bus settings (00_scope.md R7). -/
inductive BitOrder where
  | msbFirst
  | lsbFirst
  deriving DecidableEq, Repr

/-- The clock mode of the bus settings (00_scope.md R7 names mode 0; PRESUMED the usual four, log entry 18). -/
inductive ClockMode where
  | mode0
  | mode1
  | mode2
  | mode3
  deriving DecidableEq, Repr

/-- The bus settings pushed at each transaction (00_scope.md R7, 10_state.md R16). -/
structure Settings where
  clockHz : Nat
  bitOrder : BitOrder
  mode : ClockMode
  deriving DecidableEq, Repr

namespace Config

/-- 00_scope.md R7: `SETTINGS` = (100000 Hz, most-significant bit first, clock mode 0). -/
def settings : Settings := { clockHz := 100000, bitOrder := .msbFirst, mode := .mode0 }

/-- 00_scope.md R7: `DUMMY_BYTE`. -/
def dummyByte : Byte := 0x00

/-- 00_scope.md R7: `ENABLE_MASK`, MDR1 bit 2. -/
def enableMask : Byte := 0x04

/-- 00_scope.md R7: `DEFAULT_MDR0`, the spec's decision D10 (log entry 8). -/
def defaultMdr0 : Byte := 0x03

/-- 00_scope.md R7: `DEFAULT_MDR1`, the spec's decision D11 (log entry 8). -/
def defaultMdr1 : Byte := 0x00

/-- 10_state.md R17: the line given to the constructor, if one is given. A parameter: no value of it can be proved. -/
opaque csArgument : Option LineId

/-- 00_scope.md R7: `BUS_DEFAULT_CS`, the bus's own default line. A parameter: no value of it can be proved. -/
opaque busDefaultCs : LineId

/-- 10_state.md R29: the oracle `RESPOND`. `respond k` is what the bus answers to the byte transfer number `k` of
the run where State.replies does not say it: a byte, or `none` for a transfer that never returns (40_framing.md
R72). FREE VALUE (log entry 1). R29 leaves open what the oracle depends on (the history, the device, the wiring). That
it is read at the transfer's number alone is the model's choice (DESIGN CHOICE, log entry 26), so two runs or two
handles that read it at the same number read the same answer (log entry 27): State.replies is where answers differ. -/
opaque respond : Nat → Option Byte

/-- 60_exceptions.md R99: byte number `k` of the read buffer that the failed transfer number `n` leaves.
FREE VALUE (log entry 7). That two runs or two handles at the same `n` read the same bytes is the model's choice
(DESIGN CHOICE, log entry 28). -/
opaque staleByte : Nat → Nat → Byte

end Config

end Sys2Proof
end

