-- ==== Sys2Proof/Syntax.lean ====
section
/-! DEFINITION. The operations of the block (30_encoding.md R64, spec/opcode_table.json), one constructor per row, and the two name spaces a command byte is made of. -/

namespace Sys2Proof

/-- The four actions of 30_encoding.md R51. -/
inductive Action where
  | clear
  | read
  | write
  | load
  deriving DecidableEq, Repr

/-- The six device registers of 30_encoding.md R52. -/
inductive Reg where
  | mdr0
  | mdr1
  | dtr
  | cntr
  | otr
  | str
  deriving DecidableEq, Repr

/-- The operations of 30_encoding.md R64 with their operands. A buffer that may be absent is an `Option`
(40_framing.md R66); its length operand stands beside it, as in the table. -/
inductive Instr where
  /-- R66: `transfer(wbuf?, W, rbuf?, R)`; `rbuf` carries what the caller's read buffer held before the call. -/
  | transfer (wbuf : Option (List Byte)) (wLen : Nat) (rbuf : Option (List Byte)) (rLen : Nat)
  /-- R73. -/
  | writeMode0 (settings : Byte)
  /-- R74. -/
  | writeMode1 (settings : Byte)
  /-- R75: the 4-byte buffer, `b0` its first byte. -/
  | writeDataRegister (b0 b1 b2 b3 : Byte)
  /-- R76. -/
  | loadCounterFromData
  /-- R77. -/
  | loadOutputFromCounter
  /-- R78. -/
  | readMode0
  /-- R79. -/
  | readMode1
  /-- R80. -/
  | readStatus
  /-- R82. -/
  | readOutputRegister
  /-- R83. -/
  | readCounter
  /-- R84. -/
  | readDataRegister
  /-- R86. -/
  | clearMode0
  /-- R87. -/
  | clearMode1
  /-- R88. -/
  | clearCounter
  /-- R89. -/
  | clearStatus
  /-- R91. -/
  | configure (mdr0Settings mdr1Settings : Byte)
  /-- R92. -/
  | enable
  /-- R93. -/
  | disable
  /-- R94. -/
  | defaultConfiguration
  /-- R95: the operation the table calls `begin`. -/
  | beginOp
  /-- R96: the operation the table calls `end`. -/
  | endOp
  deriving DecidableEq, Repr

end Sys2Proof
end

