-- ==== Sys2Proof/Machine/State.lean ====
section
/-! DEFINITION. The state of one device handle (10_state.md R13), the observation of its run (R24, R27, R28), what the environment supplies (R20, R29), and the reasons a step can stop. -/

namespace Sys2Proof.Machine

/-- What the block drives on the chip-select line (10_state.md R18). -/
inductive CsDrive where
  | undriven
  | high
  | low
  deriving DecidableEq, Repr

/-- A level of the chip-select line in an event (10_state.md R27). -/
inductive Level where
  | low
  | high
  deriving DecidableEq, Repr

/-- Whether the block has claimed the bus (10_state.md R19). -/
inductive BusClaim where
  | unclaimed
  | claimed
  deriving DecidableEq, Repr

/-- The lifecycle phase (10_state.md R21). -/
inductive Phase where
  | constructed
  | active
  | ended
  deriving DecidableEq, Repr

/-- The interface events of 10_state.md R27, one for each capability call. -/
inductive Event where
  | busClaim
  | busRelease
  | pinOut (line : LineId)
  | pinHiZ (line : LineId)
  | cs (line : LineId) (level : Level)
  | txnBegin (settings : Settings)
  /-- A full-duplex byte transfer: the byte the block sent and the byte received at the same time. -/
  | byte (sent received : Byte)
  | txnEnd
  deriving DecidableEq, Repr

/-- The result of one operation (10_state.md R24, 30_encoding.md R64). -/
inductive Result where
  /-- The generic transfer: its success bit and the read buffer. -/
  | transfer (ok : Bool) (rbuf : List Byte)
  /-- Writes, loads and clears: the success bit. -/
  | ok (success : Bool)
  /-- The single-byte reads. -/
  | u8 (value : Byte)
  /-- readCounter. -/
  | u32 (value : Word)
  /-- readOutputRegister and readDataRegister. -/
  | i32 (value : Int)
  /-- The composite and lifecycle operations return no value. -/
  | noValue
  deriving DecidableEq, Repr

/-- The state of one handle, all of it plain data. The first seven fields are the block's (10_state.md R13). -/
structure State where
  /-- `st.width` (R14). -/
  width : Width
  /-- `st.settings` (R16). -/
  settings : Settings
  /-- `st.csLine` (R17). -/
  csLine : LineId
  /-- `st.cs` (R18). -/
  cs : CsDrive
  /-- `st.bus` (R19). -/
  bus : BusClaim
  /-- `st.phase` (R21). -/
  phase : Phase
  /-- `st.inTxn` (R22). -/
  inTxn : Bool
  /-- Observation (R28): every event so far, oldest first. -/
  events : List Event
  /-- Observation (R28): the result of every completed operation, oldest first. -/
  results : List Result
  /-- Environment (R20, R28): the operations presented and not yet run, the next one first. -/
  pending : List Instr
  /-- Environment (R29): what the bus answers to the coming byte transfers, the next one first, `none` for a
  transfer that never returns (40_framing.md R72). Beyond the list `Config.respond` answers. -/
  replies : List (Option Byte)
  /-- How many bytes have been received so far: where `Config.respond` is read (log entry 26). -/
  drawn : Nat
  /-- How many failed transfers have left an unspecified read buffer: where `Config.staleByte` is read (log entry 28). -/
  staleDraws : Nat
  deriving DecidableEq, Repr

/-- The block has no fault: it has no trap mechanism and never stops its caller (60_exceptions.md R102, R104,
R112: "The block itself never produces a fault in the sense of a trap"). So nobody raises one, and the type has no
constructor. -/
inductive Fault where
  deriving DecidableEq, Repr

/-- Why an operation has no meaning. -/
inductive Refusal where
  /-- Raised by Dispatch for an instruction that has no meaning yet; safe. No arm answers it. -/
  | notModelled (mnemonic : String)
  /-- Raised by every meaning for an operation presented in a lifecycle phase that does not admit it
  (46_lifecycle.md R97, the spec's decision D7); `found` is that phase. Safe: no claim holds of the run. -/
  | outsidePhase (found : Phase)
  /-- Raised by transfer where a buffer's length is not the length operand given with it, which is no operand
  of 40_framing.md R66 (log entry 10). Safe. -/
  | lengthMismatch
  deriving DecidableEq, Repr

/-- Construction (10_state.md R30, 70_reset_and_hazards.md R113): `line` is the constructor's argument,
`busDefault` the bus's own default line (R17). The observation starts empty; the environment's part is the
model's (log entries 1, 4, 7). -/
def State.construct (line : Option LineId) (busDefault : LineId) : State where
  width := 0
  settings := Config.settings
  csLine := line.getD busDefault
  cs := .undriven
  bus := .unclaimed
  phase := .constructed
  inTxn := false
  events := []
  results := []
  pending := []
  replies := []
  drawn := 0
  staleDraws := 0

/-- The machine right after reset, which is construction (70_reset_and_hazards.md R113). -/
def State.reset : State := State.construct Config.csArgument Config.busDefaultCs

end Sys2Proof.Machine
end

