-- ==== Sys2Proof/Machine/Flags.lean ====
section
/-! DEFINITION. The block has no flags or condition codes (10_state.md R23). What stands here are the bits of an MDR1 settings byte that it reads or changes: the width bits 1:0 (45_config.md R90) and the enable bit 2 (R92, R93). -/

namespace Sys2Proof.Machine

/-- 45_config.md R90: `WIDTH_OF(mdr1 & 0x03)`, the table row by row. -/
def widthOf (mdr1 : Byte) : Width :=
  if mdr1 &&& 0x03 = 0x00 then 4
  else if mdr1 &&& 0x03 = 0x01 then 3
  else if mdr1 &&& 0x03 = 0x02 then 2
  else 1

/-- 45_config.md R92: bit 2 cleared, `v & 0xFB`. -/
def countingEnabled (v : Byte) : Byte := v &&& ~~~Config.enableMask

/-- 45_config.md R93: bit 2 set, `v | 0x04`. -/
def countingDisabled (v : Byte) : Byte := v ||| Config.enableMask

end Sys2Proof.Machine
end

