-- ==== Sys2Proof/Decode.lean ====
section
/-! DEFINITION. Command bytes and frames (30_encoding.md): the encoder of the table's frames, and a decoder for a listener on the bus (R53, R60), total on any bytes and rejecting by name. The block itself never decodes (R65). -/

namespace Sys2Proof

/-! ### Command bytes (R51 to R54) -/

/-- 30_encoding.md R51. -/
def Action.code : Action → Byte
  | .clear => 0x00
  | .read => 0x40
  | .write => 0x80
  | .load => 0xC0

/-- 30_encoding.md R52. -/
def Reg.code : Reg → Byte
  | .mdr0 => 0x08
  | .mdr1 => 0x10
  | .dtr => 0x18
  | .cntr => 0x20
  | .otr => 0x28
  | .str => 0x30

/-- 30_encoding.md R54: `cmd = ACTION | REG`. -/
def commandByte (a : Action) (r : Reg) : Byte := a.code ||| r.code

/-- 00_scope.md R9: `zeros(n)`, here as dummy bytes (30_encoding.md R57). -/
def zeros (n : Nat) : List Byte := List.replicate n Config.dummyByte

/-- 30_encoding.md R59: the thirteen command bytes the block's own operations form. -/
def formedCommands : List Byte :=
  [0x88, 0x90, 0x98, 0xE0, 0xE8, 0x48, 0x50, 0x70, 0x68, 0x60, 0x58, 0x20, 0x30]

/-! ### Decoding -/

/-- Why a listener reads no operation of the block from what it saw (30_encoding.md R60, R61). -/
inductive DecodeError where
  /-- A frame without a byte. -/
  | emptyFrame
  /-- Bits 2:0 of the command byte are not zero (R53, R60). -/
  | lowBitsSet (cmd : Byte)
  /-- The selector is 0b000 or 0b111, which names no register (R43, R52). -/
  | noSuchRegister (cmd : Byte)
  /-- A dash of R60's table: no operation forms this action on this register. -/
  | neverFormed (a : Action) (r : Reg)
  /-- The frame has not the length its command has at this width (R55, R63). -/
  | wrongLength (a : Action) (r : Reg)
  /-- A read frame in which a dummy byte is not 0x00 (R57). -/
  | dummyNotZero (a : Action) (r : Reg)
  /-- No frame at all: begin and a failed transfer send none. -/
  | noFrame
  /-- Several frames that no one composite operation sends (R64). -/
  | notOneOperation
  deriving DecidableEq, Repr

/-- The action named by bits 7:6 (30_encoding.md R51, R53). -/
def actionOfBits (b : BitVec 2) : Action :=
  if b = 0b00 then .clear
  else if b = 0b01 then .read
  else if b = 0b10 then .write
  else .load

/-- The register named by bits 5:3 (30_encoding.md R52, R53). -/
def regOfBits (b : BitVec 3) : Option Reg :=
  if b = 0b001 then some .mdr0
  else if b = 0b010 then some .mdr1
  else if b = 0b011 then some .dtr
  else if b = 0b100 then some .cntr
  else if b = 0b101 then some .otr
  else if b = 0b110 then some .str
  else none

/-- 30_encoding.md R53: the action and the register of a command byte. -/
def decodeCommand (c : Byte) : Except DecodeError (Action × Reg) :=
  if c.extractLsb' 0 3 = 0 then
    match regOfBits (c.extractLsb' 3 3) with
    | some r => .ok (actionOfBits (c.extractLsb' 6 2), r)
    | none => .error (.noSuchRegister c)
  else .error (.lowBitsSet c)

/-- Format `FC` (30_encoding.md R55). -/
def decodeBare (a : Action) (r : Reg) (rest : List Byte) (i : Instr) : Except DecodeError Instr :=
  if rest = [] then .ok i else .error (.wrongLength a r)

/-- Format `FCD` (30_encoding.md R55). -/
def decodeData (a : Action) (r : Reg) (rest : List Byte) (k : Byte → Instr) : Except DecodeError Instr :=
  match rest with
  | [d] => .ok (k d)
  | _ => .error (.wrongLength a r)

/-- Formats `FR1` and `FRW` (30_encoding.md R55, R57). -/
def decodeDummies (a : Action) (r : Reg) (n : Nat) (rest : List Byte) (i : Instr) :
    Except DecodeError Instr :=
  if rest.length = n then
    if rest = zeros n then .ok i else .error (.dummyNotZero a r)
  else .error (.wrongLength a r)

/-- Format `FCP` (30_encoding.md R55). The buffer's bytes that the frame does not carry read as 0x00 (log entry 5). -/
def decodePayload (w : Width) (rest : List Byte) : Except DecodeError Instr :=
  if rest.length = w.val then
    .ok (.writeDataRegister (rest.getD 0 0) (rest.getD 1 0) (rest.getD 2 0) (rest.getD 3 0))
  else .error (.wrongLength .write .dtr)

/-- The cells of 30_encoding.md R60. The two write cells that a clear operation shares are read as the clear
operation where the data byte is its constant (44_clear.md R86, R87; log entry 5). -/
def decodeBody (w : Width) (a : Action) (r : Reg) (rest : List Byte) : Except DecodeError Instr :=
  match a, r with
  | .clear, .cntr => decodeBare a r rest .clearCounter
  | .clear, .str => decodeBare a r rest .clearStatus
  | .read, .mdr0 => decodeDummies a r 1 rest .readMode0
  | .read, .mdr1 => decodeDummies a r 1 rest .readMode1
  | .read, .str => decodeDummies a r 1 rest .readStatus
  | .read, .dtr => decodeDummies a r w.val rest .readDataRegister
  | .read, .cntr => decodeDummies a r w.val rest .readCounter
  | .read, .otr => decodeDummies a r w.val rest .readOutputRegister
  | .write, .mdr0 =>
    decodeData a r rest fun d => if d = commandByte .clear .mdr0 then .clearMode0 else .writeMode0 d
  | .write, .mdr1 =>
    decodeData a r rest fun d => if d = commandByte .clear .mdr1 then .clearMode1 else .writeMode1 d
  | .write, .dtr => decodePayload w rest
  | .load, .cntr => decodeBare a r rest .loadCounterFromData
  | .load, .otr => decodeBare a r rest .loadOutputFromCounter
  | a, r => .error (.neverFormed a r)

/-- The primitive operation that sends this frame at register width `w` (30_encoding.md R53, R55, R60). -/
def decodeFrame (w : Width) : List Byte → Except DecodeError Instr
  | [] => .error .emptyFrame
  | c :: rest =>
    match decodeCommand c with
    | .ok (a, r) => decodeBody w a r rest
    | .error e => .error e

/-- The frames of defaultConfiguration before its last one (45_config.md R94). -/
def defaultFrames : List (List Byte) :=
  [[commandByte .write .mdr0, Config.defaultMdr0], [commandByte .write .mdr1, Config.defaultMdr1],
   [commandByte .write .dtr, 0x00, 0x00, 0x00, 0x00], [commandByte .clear .cntr],
   [commandByte .load .cntr], [commandByte .read .mdr1, Config.dummyByte]]

/-- The one operation that sends these frames in this order (30_encoding.md R64): one frame is a primitive
operation, several are a composite (log entry 5). -/
def decodeFrames (w : Width) : List (List Byte) → Except DecodeError Instr
  | [] => .error .noFrame
  | [f] => decodeFrame w f
  | [[c, d], [c', d']] =>
    if c = commandByte .write .mdr0 ∧ c' = commandByte .write .mdr1 then .ok (.configure d d')
    else if c = commandByte .read .mdr1 ∧ d = Config.dummyByte ∧ c' = commandByte .write .mdr1 then
      if d' &&& Config.enableMask = 0 then .ok .enable else .ok .disable
    else .error .notOneOperation
  | [[c], [c', d'], [c'', d'']] =>
    if c = commandByte .clear .cntr ∧ c' = commandByte .read .mdr1 ∧ d' = Config.dummyByte ∧
        c'' = commandByte .write .mdr1 ∧ d'' &&& Config.enableMask ≠ 0 then .ok .endOp
    else .error .notOneOperation
  | [f1, f2, f3, f4, f5, f6, [c, d]] =>
    if [f1, f2, f3, f4, f5, f6] = defaultFrames ∧ c = commandByte .write .mdr1 ∧
        d &&& Config.enableMask = 0 then .ok .defaultConfiguration
    else .error .notOneOperation
  | _ => .error .notOneOperation

/-! ### Encoding -/

/-- The frames an operation sends, in order (30_encoding.md R55, R57, R64; the table's column of frames), at
register width `w` when it starts, `v` being the MDR1 byte it reads where it reads one. begin and a transfer
with an absent buffer send none. -/
def encode (w : Width) (v : Byte) : Instr → List (List Byte)
  | .transfer (some b) _ (some _) n => [b ++ zeros n]
  | .transfer (some _) _ none _ => []
  | .transfer none _ _ _ => []
  | .writeMode0 d => [[commandByte .write .mdr0, d]]
  | .writeMode1 d => [[commandByte .write .mdr1, d]]
  | .writeDataRegister b0 b1 b2 b3 => [commandByte .write .dtr :: [b0, b1, b2, b3].take w.val]
  | .loadCounterFromData => [[commandByte .load .cntr]]
  | .loadOutputFromCounter => [[commandByte .load .otr]]
  | .readMode0 => [commandByte .read .mdr0 :: zeros 1]
  | .readMode1 => [commandByte .read .mdr1 :: zeros 1]
  | .readStatus => [commandByte .read .str :: zeros 1]
  | .readOutputRegister => [commandByte .read .otr :: zeros w.val]
  | .readCounter => [commandByte .read .cntr :: zeros w.val]
  | .readDataRegister => [commandByte .read .dtr :: zeros w.val]
  | .clearMode0 => [[commandByte .write .mdr0, commandByte .clear .mdr0]]
  | .clearMode1 => [[commandByte .write .mdr1, commandByte .clear .mdr1]]
  | .clearCounter => [[commandByte .clear .cntr]]
  | .clearStatus => [[commandByte .clear .str]]
  | .configure m0 m1 => [[commandByte .write .mdr0, m0], [commandByte .write .mdr1, m1]]
  | .enable => [commandByte .read .mdr1 :: zeros 1, [commandByte .write .mdr1, v &&& ~~~Config.enableMask]]
  | .disable => [commandByte .read .mdr1 :: zeros 1, [commandByte .write .mdr1, v ||| Config.enableMask]]
  | .defaultConfiguration => defaultFrames ++ [[commandByte .write .mdr1, v &&& ~~~Config.enableMask]]
  | .beginOp => []
  | .endOp =>
    [[commandByte .clear .cntr], commandByte .read .mdr1 :: zeros 1,
     [commandByte .write .mdr1, v ||| Config.enableMask]]

/-- How many bytes of each frame that `encode` lists belong to its write phase (40_framing.md R66, R68): all of a
frame that carries data, the command byte of a read, the caller's bytes of a transfer. The rest of the frame is the
read phase, whose received bytes are kept (R69). -/
def writePhases (w : Width) : Instr → List Nat
  | .transfer (some b) _ (some _) _ => [b.length]
  | .transfer (some _) _ none _ => []
  | .transfer none _ _ _ => []
  | .writeMode0 _ => [2]
  | .writeMode1 _ => [2]
  | .writeDataRegister _ _ _ _ => [1 + w.val]
  | .loadCounterFromData => [1]
  | .loadOutputFromCounter => [1]
  | .readMode0 => [1]
  | .readMode1 => [1]
  | .readStatus => [1]
  | .readOutputRegister => [1]
  | .readCounter => [1]
  | .readDataRegister => [1]
  | .clearMode0 => [2]
  | .clearMode1 => [2]
  | .clearCounter => [1]
  | .clearStatus => [1]
  | .configure _ _ => [2, 2]
  | .enable => [1, 2]
  | .disable => [1, 2]
  | .defaultConfiguration => [2, 2, 5, 1, 1, 1, 2]
  | .beginOp => []
  | .endOp => [1, 1, 2]

/-! ### The words of the opcode table -/

/-- The bytes of a table word, the first byte in bits 7:0. This numbering is the model's choice (DESIGN CHOICE, log
entry 24): 30_encoding.md R56 views a frame as one number with its first byte in the TOP bits, which is
`Machine.frameNumber`. -/
def tableBytes (nbits w : Nat) : List Byte :=
  (List.range (nbits / 8)).map fun k => BitVec.ofNat 8 (w >>> (8 * k))

/-- The length of the frame that a command byte opens at register width 4 (30_encoding.md R55, R63). -/
def widestFrame : List Byte → Nat
  | [] => 0
  | c :: _ =>
    match decodeCommand c with
    | .ok (.read, r) => if r = .mdr0 ∨ r = .mdr1 ∨ r = .str then 2 else 5
    | .ok (.write, r) => if r = .dtr then 5 else 2
    | .ok (.clear, _) => 1
    | .ok (.load, _) => 1
    | .error _ => 1

/-- What the decoder reads from a word of spec/opcode_table.json: the table gives a row its command byte only, so
the operand bytes above it are 0x00; the register width is 4, at which no operand byte is missing (log entry 5). -/
def decodeTableWord (nbits w : Nat) : Option Instr :=
  let bytes := tableBytes nbits w
  match decodeFrame 4 (bytes ++ zeros (widestFrame bytes - bytes.length)) with
  | .ok i => some i
  | .error _ => none

end Sys2Proof
end

