-- ==== Sys2Proof/Machine/Operands.lean ====
section
/-! DEFINITION. The operand and result forms: the buffer of writeDataRegister, big-endian assembly and its signed reading (43_read.md), and a frame as bits on the wire (30_encoding.md R56). -/

namespace Sys2Proof.Machine

/-- The caller's 4-byte buffer in buffer order (41_write.md R75). -/
def dataBuffer (b0 b1 b2 b3 : Byte) : List Byte := [b0, b1, b2, b3]

/-- The loop of 43_read.md R81 from accumulator `acc`. -/
def assembleFrom (acc : Word) : List Byte → Word
  | [] => acc
  | b :: bs => assembleFrom ((acc <<< 8) ||| b.setWidth 32) bs

/-- 43_read.md R81: `assemble`, the first byte the most significant. -/
def assemble (bs : List Byte) : Word := assembleFrom 0 bs

/-- 00_scope.md R8: `toSigned_32`. -/
def toSigned32 (u : Word) : Int :=
  if u.toNat < 2 ^ 31 then (u.toNat : Int) else (u.toNat : Int) - 2 ^ 32

/-- The result of a one-byte read: `r[0]` (43_read.md R78). A read frame of one byte always captures one. -/
def firstByte (r : List Byte) : Byte := r.headD 0

/-- 30_encoding.md R56: a frame of `n` bytes as one `8n`-bit number, sent most-significant bit first. -/
def frameNumber : List Byte → Nat
  | [] => 0
  | b :: bs => b.toNat * 256 ^ bs.length + frameNumber bs

/-- The eight bits of a byte in the order the wire carries them (20_memory.md R35). -/
def wireBits (o : BitOrder) (b : Byte) : List Bool :=
  match o with
  | .msbFirst => (List.range 8).map fun k => b.getLsbD (7 - k)
  | .lsbFirst => (List.range 8).map fun k => b.getLsbD k

end Sys2Proof.Machine
end

