-- ==== Sys2Proof/Machine/Ops.lean ====
section
/-! DEFINITION. The named operations every meaning is built from: the capability calls (10_state.md R27), byte transfers answered by the oracle (R29), the transfer primitive Txn with its one error (40_framing.md R66, 60_exceptions.md R99), the shorthands of 00_scope.md R10, and admission by phase (46_lifecycle.md R97). -/

namespace Sys2Proof.Machine

/-- What a meaning answers: a next state, a fault or a refusal. -/
abbrev Answer := Host.Outcome State Fault Refusal

/-- A piece of an operation either completes with a value, or stops for good inside a byte transfer that never
returns (40_framing.md R72). -/
inductive Flow (α : Type) where
  | done (a : α) (s : State)
  | stuck (s : State)

/-- Goes on with the value and the state; a stuck piece stays stuck, and the later steps do not happen. -/
def Flow.andThen {α β : Type} (m : Flow α) (k : α → State → Flow β) : Flow β :=
  match m with
  | .done a s => k a s
  | .stuck s => .stuck s

/-- Turns the value of a completed piece into another one. -/
def Flow.giving {α β : Type} (m : Flow α) (f : α → β) : Flow β :=
  m.andThen fun a s => .done (f a) s

/-- The state after the operation: its result is observed where it completed (10_state.md R24, R28); a stuck
operation has no result (40_framing.md R72). -/
def Flow.finish (m : Flow Result) : State :=
  match m with
  | .done r s => { s with results := s.results ++ [r] }
  | .stuck s => s

/-! ### Updates of single fields -/

/-- 00_scope.md R9: `emit E` appends the event. -/
def State.emit (s : State) (e : Event) : State := { s with events := s.events ++ [e] }

/-- `st.width <- w`. -/
def State.setWidth (s : State) (w : Width) : State := { s with width := w }

/-- `st.cs <- c`. -/
def State.setCs (s : State) (c : CsDrive) : State := { s with cs := c }

/-- `st.bus <- b`. -/
def State.setBus (s : State) (b : BusClaim) : State := { s with bus := b }

/-- `st.phase <- p`. -/
def State.setPhase (s : State) (p : Phase) : State := { s with phase := p }

/-- `st.inTxn <- b`. -/
def State.setInTxn (s : State) (b : Bool) : State := { s with inTxn := b }

/-- The next reply has been received. -/
def State.takeReply (s : State) : State :=
  { s with replies := s.replies.tail, drawn := s.drawn + 1 }

/-- The free value of one more unspecified read buffer has been used. -/
def State.takeStale (s : State) : State := { s with staleDraws := s.staleDraws + 1 }

/-! ### The oracle (10_state.md R29) -/

/-- What the bus answers to the byte transfer `k` places after the next one: the handle's own list of answers, and past
its end the oracle at the handle's own count. Two handles past their lists at the same count read the same answer,
although their devices are separate: 60_exceptions.md R109 leaves open whether their bytes are independent, and this is
the model's choice (DESIGN CHOICE, log entries 26 and 27). -/
def State.replyAt (s : State) (k : Nat) : Option Byte :=
  match s.replies[k]? with
  | some r => r
  | none => Config.respond (s.drawn + k)

/-- The bytes that the `n` transfers from place `k` on receive, if every one of them returns. -/
def State.repliesFrom (s : State) (k : Nat) : Nat → Option (List Byte)
  | 0 => some []
  | n + 1 =>
    match s.replyAt k, s.repliesFrom (k + 1) n with
    | some b, some bs => some (b :: bs)
    | _, _ => none

/-- The bytes that the next `n` transfers receive, if every one of them returns. -/
def State.nextReplies (s : State) (n : Nat) : Option (List Byte) := s.repliesFrom 0 n

/-! ### The capability calls (00_scope.md R10, 10_state.md R27) -/

/-- The drive that a level leaves on the line (10_state.md R18). -/
def Level.drive : Level → CsDrive
  | .low => .low
  | .high => .high

/-- `CsDrive(level)`, which leaves the line at that level. -/
def csDrive (l : Level) (s : State) : State := (s.emit (.cs s.csLine l)).setCs l.drive

/-- `BusBeginTransaction(st.settings)` (40_framing.md R70). -/
def busBeginTransaction (s : State) : State := s.emit (.txnBegin s.settings)

/-- `BusEndTransaction()`. -/
def busEndTransaction (s : State) : State := s.emit .txnEnd

/-- `BusBegin()`, which claims the bus (10_state.md R19). -/
def busBegin (s : State) : State := (s.emit .busClaim).setBus .claimed

/-- `BusEnd()`, which releases the bus (10_state.md R19). -/
def busEnd (s : State) : State := (s.emit .busRelease).setBus .unclaimed

/-- `PinOutput()`. -/
def pinOutput (s : State) : State := s.emit (.pinOut s.csLine)

/-- `PinRelease()`, after which the line is not driven (46_lifecycle.md R96). -/
def pinRelease (s : State) : State := (s.emit (.pinHiZ s.csLine)).setCs .undriven

/-- `Xfer(out) -> in`, blocking: where the transfer never returns, the operation is stuck here, and the call has no
received byte to show as an event (40_framing.md R72; log entry 3). -/
def xfer (out : Byte) (s : State) : Flow Byte :=
  match s.replyAt 0 with
  | some b => .done b (s.takeReply.emit (.byte out b))
  | none => .stuck s

/-- Transfers in buffer order, with what each of them received (20_memory.md R45). -/
def xfers : List Byte → State → Flow (List Byte)
  | [], s => .done [] s
  | o :: os, s => (xfer o s).andThen fun b s => (xfers os s).giving fun bs => b :: bs

/-! ### The transfer primitive (40_framing.md R66 to R72) -/

/-- The start of a transaction (40_framing.md R67, steps 1 and 2). -/
def openFrame (s : State) : State := busBeginTransaction ((csDrive .low s).setInTxn true)

/-- The end of a transaction (40_framing.md R67, steps 4 and 5). -/
def closeFrame (s : State) : State := (csDrive .high (busEndTransaction s)).setInTxn false

/-- One frame: `w` is sent and what comes back is dropped, then `n` dummy bytes are sent and what comes back is
kept (40_framing.md R66, R69). -/
def frame (w : List Byte) (n : Nat) (s : State) : Flow (List Byte) :=
  (xfers w (openFrame s)).andThen fun _ s =>
    (xfers (zeros n) s).andThen fun r s => .done r (closeFrame s)

/-- The unspecified contents of a read buffer of `n` bytes after a failed transfer (60_exceptions.md R99; free value,
log entry 7). Where no read buffer was given there is none to show, and `n` is 0 (log entry 23). -/
def staleBuffer (n : Nat) (s : State) : List Byte := (List.range n).map (Config.staleByte s.staleDraws)

/-- THE ONE ERROR of the block (60_exceptions.md R99): reported as the result `false`, before any event and any
change of the block's state. The block has no other exception entry (R104). -/
def raiseInvalidBuffer (n : Nat) (s : State) : Flow (Bool × List Byte) :=
  .done (false, staleBuffer n s) s.takeStale

/-- `Txn(wbuf, R)` (40_framing.md R66). Only presence is checked, and it is checked first (60_exceptions.md R105). R66
answers (false, ANY); that the ANY is the empty list where the read buffer itself is absent is the model's choice
(DESIGN CHOICE, log entry 23). -/
def txn (wbuf : Option (List Byte)) (rbuf : Option Nat) (s : State) : Flow (Bool × List Byte) :=
  match wbuf, rbuf with
  | some w, some n => (frame w n s).giving fun r => (true, r)
  | none, some n => raiseInvalidBuffer n s
  | some _, none => raiseInvalidBuffer 0 s
  | none, none => raiseInvalidBuffer 0 s

/-! ### The shorthands of 00_scope.md R10 -/

/-- `MemRead(sel, n)`. -/
def memRead (r : Reg) (n : Nat) (s : State) : Flow (List Byte) :=
  (txn (some [commandByte .read r]) (some n) s).giving Prod.snd

/-- `MemWrite(sel, n, bytes)`. -/
def memWrite (r : Reg) (n : Nat) (bytes : List Byte) (s : State) : Flow Bool :=
  (txn (some (commandByte .write r :: bytes.take n)) (some 0) s).giving Prod.fst

/-- `Cmd(c)`. -/
def cmd (c : Byte) (s : State) : Flow Bool :=
  (txn (some [c]) (some 0) s).giving Prod.fst

/-- A read of one byte: `r[0]` (43_read.md R78 to R80). -/
def readByte (r : Reg) (s : State) : Flow Byte := (memRead r 1 s).giving firstByte

/-- A read of `st.width` bytes, assembled (43_read.md R81 to R84). -/
def readWide (r : Reg) (s : State) : Flow Word := (memRead r s.width.val s).giving assemble

/-! ### Admission (46_lifecycle.md R97, 40_framing.md R72) -/

/-- Runs an operation that phase `p` admits. In another phase it is refused (46_lifecycle.md R97). While a byte
transfer is stalled nothing of this handle happens any more (40_framing.md R72; log entry 2). -/
def admittedIn (p : Phase) (body : State → Flow Result) (s : State) : Answer :=
  if s.phase = p then .next (if s.inTxn then s else (body s).finish)
  else .refused (.outsidePhase s.phase)

end Sys2Proof.Machine
end

