-- ==== Sys2Proof/Machine/Clear.lean ====
section
/-! DEFINITION. Clear operations (44_clear.md R86 to R89): clearMode0 and clearMode1 are write frames whose data byte is the Clear command code, a quirk kept literally (90_conflicts.md C3). -/

namespace Sys2Proof.Machine

/-- 44_clear.md R86: the frame `[0x88, 0x08]`. -/
def clearMode0 (s : State) : Flow Bool := memWrite .mdr0 1 [commandByte .clear .mdr0] s

/-- 44_clear.md R87: the frame `[0x90, 0x10]`; `st.width` is not updated. -/
def clearMode1 (s : State) : Flow Bool := memWrite .mdr1 1 [commandByte .clear .mdr1] s

/-- 44_clear.md R88. -/
def clearCounter (s : State) : Flow Bool := cmd (commandByte .clear .cntr) s

/-- 44_clear.md R89. -/
def clearStatus (s : State) : Flow Bool := cmd (commandByte .clear .str) s

/-- R86. -/
def execClearMode0 (s : State) : Answer :=
  admittedIn .active (fun s => (clearMode0 s).giving .ok) s

/-- R87. -/
def execClearMode1 (s : State) : Answer :=
  admittedIn .active (fun s => (clearMode1 s).giving .ok) s

/-- R88. -/
def execClearCounter (s : State) : Answer :=
  admittedIn .active (fun s => (clearCounter s).giving .ok) s

/-- R89. -/
def execClearStatus (s : State) : Answer :=
  admittedIn .active (fun s => (clearStatus s).giving .ok) s

end Sys2Proof.Machine
end

