-- ==== Sys2Proof/Machine/Load.lean ====
section
/-! DEFINITION. Load commands (42_load.md R76, R77). What they copy inside the device is the device's (20_memory.md R41). -/

namespace Sys2Proof.Machine

/-- 42_load.md R76. -/
def loadCounterFromData (s : State) : Flow Bool := cmd (commandByte .load .cntr) s

/-- 42_load.md R77. -/
def loadOutputFromCounter (s : State) : Flow Bool := cmd (commandByte .load .otr) s

/-- R76. -/
def execLoadCounterFromData (s : State) : Answer :=
  admittedIn .active (fun s => (loadCounterFromData s).giving .ok) s

/-- R77. -/
def execLoadOutputFromCounter (s : State) : Answer :=
  admittedIn .active (fun s => (loadOutputFromCounter s).giving .ok) s

end Sys2Proof.Machine
end

