-- ==== Sys2Proof/Machine/Read.lean ====
section
/-! DEFINITION. Register reads (43_read.md R78 to R84). -/

namespace Sys2Proof.Machine

/-- 43_read.md R78. -/
def readMode0 (s : State) : Flow Byte := readByte .mdr0 s

/-- 43_read.md R79. -/
def readMode1 (s : State) : Flow Byte := readByte .mdr1 s

/-- 43_read.md R80. -/
def readStatus (s : State) : Flow Byte := readByte .str s

/-- 43_read.md R82: the assembled value read as signed. -/
def readOutputRegister (s : State) : Flow Int := (readWide .otr s).giving toSigned32

/-- 43_read.md R83: the assembled value, unsigned. -/
def readCounter (s : State) : Flow Word := readWide .cntr s

/-- 43_read.md R84: the assembled value read as signed. -/
def readDataRegister (s : State) : Flow Int := (readWide .dtr s).giving toSigned32

/-- R78. -/
def execReadMode0 (s : State) : Answer :=
  admittedIn .active (fun s => (readMode0 s).giving .u8) s

/-- R79. -/
def execReadMode1 (s : State) : Answer :=
  admittedIn .active (fun s => (readMode1 s).giving .u8) s

/-- R80. -/
def execReadStatus (s : State) : Answer :=
  admittedIn .active (fun s => (readStatus s).giving .u8) s

/-- R82. -/
def execReadOutputRegister (s : State) : Answer :=
  admittedIn .active (fun s => (readOutputRegister s).giving .i32) s

/-- R83. -/
def execReadCounter (s : State) : Answer :=
  admittedIn .active (fun s => (readCounter s).giving .u32) s

/-- R84. -/
def execReadDataRegister (s : State) : Answer :=
  admittedIn .active (fun s => (readDataRegister s).giving .i32) s

end Sys2Proof.Machine
end

