-- ==== Sys2Proof/Machine/Write.lean ====
section
/-! DEFINITION. Register writes (41_write.md R73 to R75). -/

namespace Sys2Proof.Machine

/-- 41_write.md R73. -/
def writeMode0 (d : Byte) (s : State) : Flow Bool := memWrite .mdr0 1 [d] s

/-- 41_write.md R74: `st.width` is not updated. -/
def writeMode1 (d : Byte) (s : State) : Flow Bool := memWrite .mdr1 1 [d] s

/-- 41_write.md R75: the first `st.width` bytes of the buffer. -/
def writeDataRegister (b0 b1 b2 b3 : Byte) (s : State) : Flow Bool :=
  memWrite .dtr s.width.val (dataBuffer b0 b1 b2 b3) s

/-- R73. -/
def execWriteMode0 (d : Byte) (s : State) : Answer :=
  admittedIn .active (fun s => (writeMode0 d s).giving .ok) s

/-- R74. -/
def execWriteMode1 (d : Byte) (s : State) : Answer :=
  admittedIn .active (fun s => (writeMode1 d s).giving .ok) s

/-- R75. -/
def execWriteDataRegister (b0 b1 b2 b3 : Byte) (s : State) : Answer :=
  admittedIn .active (fun s => (writeDataRegister b0 b1 b2 b3 s).giving .ok) s

end Sys2Proof.Machine
end

