-- ==== Sys2Proof/Machine/Configure.lean ====
section
/-! DEFINITION. Configuration and counting enable (45_config.md R91 to R94): fixed sequences of primitive operations; where a frame stalls, the later steps do not happen. -/

namespace Sys2Proof.Machine

/-- 45_config.md R91: MDR0, then MDR1, then `st.width`, whatever the writes returned. -/
def configure (m0 m1 : Byte) (s : State) : Flow Unit :=
  (writeMode0 m0 s).andThen fun _ s =>
    (writeMode1 m1 s).andThen fun _ s => .done () (s.setWidth (widthOf m1))

/-- 45_config.md R92. -/
def enable (s : State) : Flow Unit :=
  (readMode1 s).andThen fun v s => (writeMode1 (countingEnabled v) s).giving fun _ => ()

/-- 45_config.md R93. -/
def disable (s : State) : Flow Unit :=
  (readMode1 s).andThen fun v s => (writeMode1 (countingDisabled v) s).giving fun _ => ()

/-- 45_config.md R94. -/
def defaultConfiguration (s : State) : Flow Unit :=
  (configure Config.defaultMdr0 Config.defaultMdr1 s).andThen fun _ s =>
    (writeDataRegister 0x00 0x00 0x00 0x00 s).andThen fun _ s =>
      (clearCounter s).andThen fun _ s =>
        (loadCounterFromData s).andThen fun _ s => enable s

/-- R91. -/
def execConfigure (m0 m1 : Byte) (s : State) : Answer :=
  admittedIn .active (fun s => (configure m0 m1 s).giving fun _ => .noValue) s

/-- R92. -/
def execEnable (s : State) : Answer :=
  admittedIn .active (fun s => (enable s).giving fun _ => .noValue) s

/-- R93. -/
def execDisable (s : State) : Answer :=
  admittedIn .active (fun s => (disable s).giving fun _ => .noValue) s

/-- R94. -/
def execDefaultConfiguration (s : State) : Answer :=
  admittedIn .active (fun s => (defaultConfiguration s).giving fun _ => .noValue) s

end Sys2Proof.Machine
end

