-- ==== Sys2Proof/Machine/Lifecycle.lean ====
section
/-! DEFINITION. Lifecycle (46_lifecycle.md R95, R96): begin and end. -/

namespace Sys2Proof.Machine

/-- 46_lifecycle.md R95: claim the bus, make the pin an output, deselect. No frame is sent. -/
def beginHandle (s : State) : Flow Unit :=
  .done () ((csDrive .high (pinOutput (busBegin s))).setPhase .active)

/-- 46_lifecycle.md R96: clear the counter, disable counting, release the bus, release the pin. -/
def endHandle (s : State) : Flow Unit :=
  (clearCounter s).andThen fun _ s =>
    (disable s).andThen fun _ s => .done () ((pinRelease (busEnd s)).setPhase .ended)

/-- R95: admitted only in phase Constructed. -/
def execBegin (s : State) : Answer :=
  admittedIn .constructed (fun s => (beginHandle s).giving fun _ => .noValue) s

/-- R96: admitted only in phase Active. -/
def execEnd (s : State) : Answer :=
  admittedIn .active (fun s => (endHandle s).giving fun _ => .noValue) s

end Sys2Proof.Machine
end

