-- ==== Sys2Proof/WellFormed.lean ====
section
/-! DEFINITION. Which terms of Instr are operations of 30_encoding.md R64: only the length operands of transfer can disagree with anything. -/

namespace Sys2Proof

/-- 40_framing.md R66: a present buffer has the length given with it; an absent one has no length to agree with. -/
def bufferMatches : Option (List Byte) → Nat → Bool
  | none, _ => true
  | some b, n => b.length == n

/-- An operation of the interface: every operand is of the type 30_encoding.md R64 gives it. -/
def Instr.wellFormed : Instr → Bool
  | .transfer wbuf wLen rbuf rLen => bufferMatches wbuf wLen && bufferMatches rbuf rLen
  | .writeMode0 _ => true
  | .writeMode1 _ => true
  | .writeDataRegister _ _ _ _ => true
  | .loadCounterFromData => true
  | .loadOutputFromCounter => true
  | .readMode0 => true
  | .readMode1 => true
  | .readStatus => true
  | .readOutputRegister => true
  | .readCounter => true
  | .readDataRegister => true
  | .clearMode0 => true
  | .clearMode1 => true
  | .clearCounter => true
  | .clearStatus => true
  | .configure _ _ => true
  | .enable => true
  | .disable => true
  | .defaultConfiguration => true
  | .beginOp => true
  | .endOp => true

end Sys2Proof
end

