-- ==== Sys2Proof/Machine/Transfer.lean ====
section
/-! DEFINITION. The generic transfer (40_framing.md R66). -/

namespace Sys2Proof.Machine

/-- 40_framing.md R66. The caller's read buffer is zero-filled and then overwritten byte by byte, so what it held
before plays no part; only its presence and its length do. -/
def transfer (wbuf : Option (List Byte)) (rbuf : Option (List Byte)) (s : State) :
    Flow (Bool × List Byte) :=
  txn wbuf (rbuf.map List.length) s

/-- R66: the operation, with the length operands standing for the buffers' lengths. -/
def execTransfer (wbuf : Option (List Byte)) (wLen : Nat) (rbuf : Option (List Byte)) (rLen : Nat)
    (s : State) : Answer :=
  if bufferMatches wbuf wLen && bufferMatches rbuf rLen then
    admittedIn .active (fun s => (transfer wbuf rbuf s).giving fun (ok, r) => .transfer ok r) s
  else .refused .lengthMismatch

end Sys2Proof.Machine
end

