-- ==== Sys2Proof/Machine/Dispatch.lean ====
section
/-! DEFINITION. The meaning of each operation, one arm per constructor of Instr. -/

namespace Sys2Proof.Machine

def exec (i : Instr) (s : State) : Host.Outcome State Fault Refusal :=
  match i with
  | .transfer wbuf wLen rbuf rLen => Sys2Proof.Machine.execTransfer wbuf wLen rbuf rLen s
  | .writeMode0 d => Sys2Proof.Machine.execWriteMode0 d s
  | .writeMode1 d => Sys2Proof.Machine.execWriteMode1 d s
  | .writeDataRegister b0 b1 b2 b3 => Sys2Proof.Machine.execWriteDataRegister b0 b1 b2 b3 s
  | .loadCounterFromData => Sys2Proof.Machine.execLoadCounterFromData s
  | .loadOutputFromCounter => Sys2Proof.Machine.execLoadOutputFromCounter s
  | .readMode0 => Sys2Proof.Machine.execReadMode0 s
  | .readMode1 => Sys2Proof.Machine.execReadMode1 s
  | .readStatus => Sys2Proof.Machine.execReadStatus s
  | .readOutputRegister => Sys2Proof.Machine.execReadOutputRegister s
  | .readCounter => Sys2Proof.Machine.execReadCounter s
  | .readDataRegister => Sys2Proof.Machine.execReadDataRegister s
  | .clearMode0 => Sys2Proof.Machine.execClearMode0 s
  | .clearMode1 => Sys2Proof.Machine.execClearMode1 s
  | .clearCounter => Sys2Proof.Machine.execClearCounter s
  | .clearStatus => Sys2Proof.Machine.execClearStatus s
  | .configure m0 m1 => Sys2Proof.Machine.execConfigure m0 m1 s
  | .enable => Sys2Proof.Machine.execEnable s
  | .disable => Sys2Proof.Machine.execDisable s
  | .defaultConfiguration => Sys2Proof.Machine.execDefaultConfiguration s
  | .beginOp => Sys2Proof.Machine.execBegin s
  | .endOp => Sys2Proof.Machine.execEnd s

end Sys2Proof.Machine
end

