-- ==== Sys2Proof/Machine/Present.lean ====
section
/-! DEFINITION. How an operation reaches the block: it is presented on the operation interface (10_state.md R20, R28), not fetched from a memory. -/

namespace Sys2Proof.Machine

/-- The operation at the front of the interface and the state without it, or none where nothing is presented or
where a stalled transfer lets nothing of this handle happen (40_framing.md R72). -/
def takeOperation (s : State) : Option (Instr × State) :=
  if s.inTxn then none
  else
    match s.pending with
    | [] => none
    | i :: rest => some (i, { s with pending := rest })

/-- Presents an operation ahead of those already presented. -/
def present (i : Instr) (s : State) : State := { s with pending := i :: s.pending }

/-- A handle that register operations are admitted to, as begin leaves it (70_reset_and_hazards.md R114); one that
admits them already is left alone. No step does this: it stands for the begin that must come first (log entry 4). -/
def openedHandle (s : State) : State :=
  if s.phase = .active ∧ s.inTxn = false then s
  else { s with phase := .active, bus := .claimed, cs := .high, inTxn := false }

end Sys2Proof.Machine
end

