-- ==== Sys2Proof/Machine/Step.lean ====
section
/-! DEFINITION. One step: the next presented operation runs to completion (10_state.md R6, R20). -/

namespace Sys2Proof.Machine

/-- One step of the block. Where no operation can be taken (nothing is presented, or a transfer is stalled) nothing
happens: the state stays as it is (log entries 2 and 4). -/
def step (s : State) : Host.Outcome State Fault Refusal :=
  match takeOperation s with
  | some (i, s) => exec i s
  | none => .next s

/-- `s` with the operation of a table word presented as the next one, on a handle that admits it (log entry 4). A
word the decoder refuses presents nothing. -/
def State.withFetchWord (s : State) (nbits w : Nat) : State :=
  match decodeTableWord nbits w with
  | some i => present i (openedHandle s)
  | none => s

end Sys2Proof.Machine
end

