-- ==== Sys2Proof/Machine/Frames.lean ====
section
/-! DEFINITION. Reading an event list (10_state.md R27): the frames in it (00_scope.md R12), what was sent and received in them, and the pieces of it that nothing may interrupt (20_memory.md R39, R44). -/

namespace Sys2Proof.Machine

/-- The event that opens a frame (40_framing.md R67). -/
def Event.selects : Event → Bool
  | .cs _ .low => true
  | .cs _ .high => false
  | .busClaim => false
  | .busRelease => false
  | .pinOut _ => false
  | .pinHiZ _ => false
  | .txnBegin _ => false
  | .byte _ _ => false
  | .txnEnd => false

/-- The event that ends a frame (40_framing.md R67). -/
def Event.deselects : Event → Bool
  | .cs _ .low => false
  | .cs _ .high => true
  | .busClaim => false
  | .busRelease => false
  | .pinOut _ => false
  | .pinHiZ _ => false
  | .txnBegin _ => false
  | .byte _ _ => false
  | .txnEnd => false

/-- The bytes of one event, as (sent, received). -/
def Event.bytes : Event → List (Byte × Byte)
  | .byte o i => [(o, i)]
  | .cs _ _ => []
  | .busClaim => []
  | .busRelease => []
  | .pinOut _ => []
  | .pinHiZ _ => []
  | .txnBegin _ => []
  | .txnEnd => []

/-- The complete frames of an event list from the open frame `cur`, each as its (sent, received) bytes. A frame that
is still open at the end of the list is not among them. -/
def framesFrom : Option (List (Byte × Byte)) → List Event → List (List (Byte × Byte))
  | _, [] => []
  | none, e :: es => if e.selects then framesFrom (some []) es else framesFrom none es
  | some acc, e :: es =>
    if e.deselects then acc :: framesFrom none es else framesFrom (some (acc ++ e.bytes)) es

/-- The complete frames of an event list. -/
def framesOf (es : List Event) : List (List (Byte × Byte)) := framesFrom none es

/-- What the block sent in each complete frame (30_encoding.md R55, R57). -/
def sentFrames (es : List Event) : List (List Byte) := (framesOf es).map fun f => f.map Prod.fst

/-- The pieces of an event list from the open frame `cur` on. -/
def segmentsFrom : Option (List Event) → List Event → List (List Event)
  | none, [] => []
  | some acc, [] => [acc]
  | none, e :: es => if e.selects then segmentsFrom (some [e]) es else [e] :: segmentsFrom none es
  | some acc, e :: es =>
    if e.deselects then (acc ++ [e]) :: segmentsFrom none es else segmentsFrom (some (acc ++ [e])) es

/-- An event list cut into the pieces that nothing else on the bus may interrupt: each frame is one piece, a frame
that a stall left open too (20_memory.md R39, R40). The rules speak of transactions only; that every event outside a
frame (the claim and release of the bus, the pin, the deselection that begin makes) is a piece of its own, so that
another handle's frame may fall between two of them, is the model's choice (DESIGN CHOICE, log entry 25). -/
def segments (es : List Event) : List (List Event) := segmentsFrom none es

end Sys2Proof.Machine
end

