-- ==== Sys2Proof/Machine/Bus.lean ====
section
/-! DEFINITION. Several handles on one bus (60_exceptions.md R109): each has its own state record (10_state.md R26), what they share is the bus, and its frames interleave only whole (40_framing.md R71), in an order the environment chooses. -/

namespace Sys2Proof.Machine

/-- A piece that is a frame which a stall left open (40_framing.md R72): nothing follows it on the bus
(70_reset_and_hazards.md R125). -/
def leftOpen (piece : List Event) : Bool :=
  match piece with
  | [] => false
  | e :: es => e.selects && !es.any Event.deselects

/-- The bus's event list when the environment lets the handles proceed in the order of `schedule`, each entry one
piece of the named handle's own event list (60_exceptions.md R109: the order is free). A handle with nothing left to
do is passed over. What each handle received is in its own list already: that separate handles past their lists of
answers share one oracle is log entry 27. -/
def weave : List Nat → List (List (List Event)) → List (Nat × Event)
  | [], _ => []
  | h :: schedule, streams =>
    match streams[h]? with
    | some (piece :: rest) =>
      piece.map (fun e => (h, e)) ++
        (if leftOpen piece then [] else weave schedule (streams.set h rest))
    | some [] => weave schedule streams
    | none => weave schedule streams

/-- The premise of 40_framing.md R71 on a bus's event list, `owner` being the handle whose frame is open: between
`Cs(Low)` and `Cs(High)` of a frame no event of another handle occurs. R71 names the events of transactions; that the
others stay out as well is the model's choice (log entry 25). -/
def exclusiveFrom : Option Nat → List (Nat × Event) → Bool
  | _, [] => true
  | none, (h, e) :: rest => exclusiveFrom (if e.selects then some h else none) rest
  | some owner, (h, e) :: rest =>
    h == owner && exclusiveFrom (if e.deselects then none else some owner) rest

/-- 40_framing.md R71: frames are exclusive in this event list. -/
def exclusive (log : List (Nat × Event)) : Bool := exclusiveFrom none log

/-- The events of one handle in a bus's event list. -/
def eventsOf (h : Nat) (log : List (Nat × Event)) : List Event :=
  (log.filter fun p => p.1 == h).map Prod.snd

end Sys2Proof.Machine
end

