-- ==== Sys2Proof/Machine/RefDev.lean ====
section
/-! DEFINITION. The reference device REFDEV (20_memory.md R47 to R49): a premise on the received bytes, used by statements and tests, never part of the block. -/

namespace Sys2Proof.Machine

/-- 20_memory.md R47: the registers of REFDEV. -/
structure RefDev where
  m0 : Byte
  m1 : Byte
  str : Byte
  dtr : Word
  cntr : Word
  otr : Word
  deriving DecidableEq, Repr

/-- `devW` (20_memory.md R47). -/
def RefDev.devW (d : RefDev) : Width := widthOf d.m1

/-- 20_memory.md R48: the effect of a complete frame, or none where the frame is outside REFDEV, which then predicts
nothing any more. -/
def RefDev.onFrame (d : RefDev) : List Byte → Option RefDev
  | [] => none
  | c :: p =>
    if c = 0x88 then (match p with | [x] => some { d with m0 := x } | _ => none)
    else if c = 0x90 then (match p with | [x] => some { d with m1 := x } | _ => none)
    else if c = 0x98 then (if p.length = d.devW.val then some { d with dtr := assemble p } else none)
    else if c = 0xE0 then (if p = [] then some { d with cntr := d.dtr } else none)
    else if c = 0xE8 then (if p = [] then some { d with otr := d.cntr } else none)
    else if c = 0x20 then (if p = [] then some { d with cntr := 0 } else none)
    else if c = 0x30 then (if p = [] then some { d with str := 0 } else none)
    else if c = 0x48 ∨ c = 0x50 ∨ c = 0x70 then (if p = [0x00] then some d else none)
    else if c = 0x60 ∨ c = 0x58 ∨ c = 0x68 then (if p = zeros d.devW.val then some d else none)
    else none

/-- 20_memory.md R49: the low `n` bytes of a register, most significant first. -/
def registerBytes (v : Word) (n : Nat) : List Byte :=
  (List.range n).map fun i => (v >>> (8 * (n - 1 - i))).setWidth 8

/-- 20_memory.md R49, its first two lines: what REFDEV predicts at each position of a frame that was sent, whichever
phase the position is in; `none` where the byte is unconstrained. -/
def RefDev.drives (d : RefDev) (sent : List Byte) : List (Option Byte) :=
  if sent = [0x48, 0x00] then [none, some d.m0]
  else if sent = [0x50, 0x00] then [none, some d.m1]
  else if sent = [0x70, 0x00] then [none, some d.str]
  else if sent = 0x60 :: zeros d.devW.val then none :: (registerBytes d.cntr d.devW.val).map some
  else if sent = 0x58 :: zeros d.devW.val then none :: (registerBytes d.dtr d.devW.val).map some
  else if sent = 0x68 :: zeros d.devW.val then none :: (registerBytes d.otr d.devW.val).map some
  else List.replicate sent.length none

/-- 20_memory.md R49: what REFDEV predicts at each position of a frame whose first `written` bytes are its write phase.
The block discards what it receives there (40_framing.md R69), and R49 leaves it unconstrained. -/
def RefDev.answer (d : RefDev) (written : Nat) (sent : List Byte) : List (Option Byte) :=
  (d.drives sent).mapIdx fun k p => if k < written then none else p

/-- Received bytes agree with a prediction. -/
def agrees : List (Option Byte) → List Byte → Bool
  | [], [] => true
  | none :: ps, _ :: bs => agrees ps bs
  | some p :: ps, b :: bs => p == b && agrees ps bs
  | [], _ :: _ => false
  | _ :: _, [] => false

/-- The premise "the device at the far end is REFDEV" on complete frames, each with the length of its write phase,
`none` being a device outside REFDEV. -/
def deviceAgrees : Option RefDev → List (Nat × List (Byte × Byte)) → Bool
  | _, [] => true
  | none, _ :: _ => true
  | some d, (written, f) :: fs =>
    agrees (d.answer written (f.map Prod.fst)) (f.map Prod.snd) &&
      deviceAgrees (d.onFrame (f.map Prod.fst)) fs

/-- REFDEV after complete frames. -/
def deviceAfter : Option RefDev → List (List (Byte × Byte)) → Option RefDev
  | dev, [] => dev
  | none, _ :: _ => none
  | some d, f :: fs => deviceAfter (d.onFrame (f.map Prod.fst)) fs

end Sys2Proof.Machine
end

