-- ==== Sys2Proof/Safety.lean ====
section
/-! DEFINITION. The terms claims are stated in: when a handle admits register operations, the events one frame consists of, the protocol every event list follows, the invariant of a handle, and the duties the spec leaves to the caller. -/

namespace Sys2Proof.Machine

/-- A handle to which register operations are admitted and that is not stuck (10_state.md R21, R22). -/
abbrev State.Ready (s : State) : Prop := s.phase = .active ∧ s.inTxn = false

/-- The byte events of a list of sent bytes and of what was received with each. -/
def byteEvents (sent received : List Byte) : List Event := List.zipWith Event.byte sent received

/-- The events of one complete frame, in the order of 40_framing.md R67. -/
def frameEvents (line : LineId) (settings : Settings) (sent received : List Byte) : List Event :=
  [.cs line .low, .txnBegin settings] ++ byteEvents sent received ++ [.txnEnd, .cs line .high]

/-- The events of a frame that stalls after the transfers of `received` (40_framing.md R72). -/
def openFrameEvents (line : LineId) (settings : Settings) (sent received : List Byte) : List Event :=
  [.cs line .low, .txnBegin settings] ++ byteEvents sent received

/-- The state after an operation that completed: these events, `n` bytes received, this result, the line High and no
frame open; everything else as before. -/
def State.completed (s : State) (es : List Event) (n : Nat) (r : Result) : State :=
  { s with
    events := s.events ++ es
    results := s.results ++ [r]
    replies := s.replies.drop n
    drawn := s.drawn + n
    cs := .high
    inTxn := false }

/-- The state of an operation that is stuck: these events, `n` bytes received, the line Low and the frame open, no
result (40_framing.md R72); everything else as before. -/
def State.stalled (s : State) (es : List Event) (n : Nat) : State :=
  { s with
    events := s.events ++ es
    replies := s.replies.drop n
    drawn := s.drawn + n
    cs := .low
    inTxn := true }

/-! ### The protocol of the event list (10_state.md R18, R19, R27; 40_framing.md R67; 46_lifecycle.md) -/

/-- Where a handle's event list stands. -/
inductive Wire where
  /-- Nothing yet. -/
  | fresh
  /-- The bus is claimed. -/
  | claimed
  /-- The pin is an output. -/
  | pinned
  /-- Deselected: between frames. -/
  | idle
  /-- Selected, the transaction not yet begun. -/
  | selected
  /-- Inside a transaction. -/
  | busy
  /-- The transaction ended, still selected. -/
  | closing
  /-- The bus is released. -/
  | released
  /-- The pin is released: the handle has ended. -/
  | done
  deriving DecidableEq, Repr

/-- The next place of the protocol for a handle on `line` with these settings, or none where the event is not allowed
there. -/
def Wire.next (line : LineId) (settings : Settings) (p : Wire) (e : Event) : Option Wire :=
  match p with
  | .fresh => if e = .busClaim then some .claimed else none
  | .claimed => if e = .pinOut line then some .pinned else none
  | .pinned => if e = .cs line .high then some .idle else none
  | .idle =>
    if e = .cs line .low then some .selected
    else if e = .busRelease then some .released
    else none
  | .selected => if e = .txnBegin settings then some .busy else none
  | .busy => if e.bytes ≠ [] then some .busy else if e = .txnEnd then some .closing else none
  | .closing => if e = .cs line .high then some .idle else none
  | .released => if e = .pinHiZ line then some .done else none
  | .done => none

/-- The place the protocol is at after these events, or none where an event was not allowed. -/
def Wire.run (line : LineId) (settings : Settings) : Wire → List Event → Option Wire
  | p, [] => some p
  | p, e :: es =>
    match p.next line settings e with
    | some q => Wire.run line settings q es
    | none => none

/-- The place of the protocol that a handle's phase and open-frame bit stand for. -/
def State.wire (s : State) : Wire :=
  match s.phase with
  | .constructed => .fresh
  | .active => if s.inTxn then .busy else .idle
  | .ended => .done

/-- What the block drives on its line in each phase (10_state.md R18, R22; 40_framing.md R72). -/
def State.expectedCs (s : State) : CsDrive :=
  match s.phase with
  | .constructed => .undriven
  | .active => if s.inTxn then .low else .high
  | .ended => .undriven

/-- Whether the bus is claimed in each phase (10_state.md R19). -/
def State.expectedBus (s : State) : BusClaim :=
  match s.phase with
  | .constructed => .unclaimed
  | .active => .claimed
  | .ended => .unclaimed

/-- The invariant of a handle: the settings are the constant ones (10_state.md R16), the whole event list follows the
protocol and stands where phase and open-frame bit say, the line and the bus are as the phase says (R18, R19), a
frame is open only while Active (R22), and the width is 0 before begin (R14). -/
abbrev State.Inv (s : State) : Prop :=
  s.settings = Config.settings ∧
  Wire.run s.csLine s.settings .fresh s.events = some s.wire ∧
  s.cs = s.expectedCs ∧
  s.bus = s.expectedBus ∧
  (s.inTxn = true → s.phase = .active) ∧
  (s.phase = .constructed → s.width = 0)

/-! ### Duties of the caller and the environment (70_reset_and_hazards.md R117 to R125) -/

/-- 70_reset_and_hazards.md R119: the device's width is the one the block moves. -/
abbrev widthAgrees (d : RefDev) (s : State) : Prop := d.devW = s.width

/-- The premise that the device is REFDEV `d` for the frames of these events (20_memory.md R47 to R49). `phases` is the
length of each frame's write phase, `writePhases` of the operations that sent them: an event does not show whether the
block kept the byte it received. -/
abbrev answersAsRefDev (d : RefDev) (phases : List Nat) (es : List Event) : Prop :=
  deviceAgrees (some d) (phases.zip (framesOf es)) = true

/-! ### Timing (70_reset_and_hazards.md R127, informational) -/

/-- The least time, in microseconds, that the clock takes to shift a frame of `n` bytes at these settings. -/
def minSclkMicros (settings : Settings) (n : Nat) : Nat := 8 * n * 1000000 / settings.clockHz

/-! ### The reading of an operation's frames -/

/-- Which of an operation's byte transfers brings the MDR1 byte it writes back (45_config.md R92 to R94, 46_lifecycle.md
R96), counting from 0. No other operation has one. -/
def mdr1Transfer : Instr → Nat
  | .defaultConfiguration => 12
  | .endOp => 2
  | .enable => 1
  | .disable => 1
  | .transfer _ _ _ _ => 0
  | .writeMode0 _ => 0
  | .writeMode1 _ => 0
  | .writeDataRegister _ _ _ _ => 0
  | .loadCounterFromData => 0
  | .loadOutputFromCounter => 0
  | .readMode0 => 0
  | .readMode1 => 0
  | .readStatus => 0
  | .readOutputRegister => 0
  | .readCounter => 0
  | .readDataRegister => 0
  | .clearMode0 => 0
  | .clearMode1 => 0
  | .clearCounter => 0
  | .clearStatus => 0
  | .configure _ _ => 0
  | .beginOp => 0

end Sys2Proof.Machine
end

