-- ==== Sys2Proof/Certificates/Slice0/Obligations.lean ====
section
/-! DEFINITION. The statements for the provers, from the numbered rules of spec/. -/

open Sys2Proof Sys2Proof.Machine

/-! ### Encoding (30_encoding.md) -/

/-- R51, R52, R53: the codes of the two tables; the fields of a command byte; a decoder recovers both names. -/
def Obligations.CommandByteFields : Prop :=
  (Action.clear.code = 0x00 ∧ Action.write.code = 0x80 ∧ Action.load.code = 0xC0 ∧ Action.read.code = 0x40) ∧
  (Reg.mdr0.code = 0x08 ∧ Reg.mdr1.code = 0x10 ∧ Reg.dtr.code = 0x18 ∧ Reg.cntr.code = 0x20 ∧
    Reg.otr.code = 0x28 ∧ Reg.str.code = 0x30) ∧
  ∀ a r, (commandByte a r).toNat = a.code.toNat + r.code.toNat ∧
    (commandByte a r).extractLsb' 6 2 = a.code.extractLsb' 6 2 ∧ a.code.extractLsb' 0 6 = 0 ∧
    (commandByte a r).extractLsb' 3 3 = r.code.extractLsb' 3 3 ∧
    r.code.extractLsb' 6 2 = 0 ∧ r.code.extractLsb' 0 3 = 0 ∧
    (commandByte a r).extractLsb' 0 3 = 0 ∧ decodeCommand (commandByte a r) = .ok (a, r)

/-- R60, 95_test_vectors.md V1: words written out from the spec's table are read as operations that send them. Two
clauses rest on the listener's choices, which the table does not make (DESIGN CHOICE, log entry 5): [0x90, 0x10], which
writeMode1(0x10) sends as well (R87), is read as clearMode1, and the two buffer bytes that [0x98, 0x12, 0x34] does not
carry are read as 0x00. -/
def Obligations.SpecFramesAreRead : Prop :=
  decodeFrame 4 [0x88, 0x03] = .ok (.writeMode0 0x03) ∧
  decodeFrame 2 [0x98, 0x12, 0x34] = .ok (.writeDataRegister 0x12 0x34 0x00 0x00) ∧
  decodeFrame 0 [0xE8] = .ok .loadOutputFromCounter ∧
  decodeFrame 3 [0x68, 0x00, 0x00, 0x00] = .ok .readOutputRegister ∧
  decodeFrame 4 [0x90, 0x10] = .ok .clearMode1 ∧
  decodeFrame 4 [0x30] = .ok .clearStatus ∧
  decodeFrame 4 [0xC8] = .error (.neverFormed .load .mdr0) ∧
  decodeFrame 4 [0x38] = .error (.noSuchRegister 0x38) ∧
  decodeFrame 4 [0x71, 0x00] = .error (.lowBitsSet 0x71)

/-- The operation a listener reads from an operation's frames: where a write operation and a clear operation send the
same frame (R86, R87), the clear operation (log entry 5). -/
def Sys2Proof.Machine.readingOf (i : Instr) : Instr :=
  if i = .writeMode0 0x08 then .clearMode0 else if i = .writeMode1 0x10 then .clearMode1 else i

/-- R55, R60, R64: decoding the frames an operation sends gives the operation back, whatever its operands and whatever MDR1
byte it reads; the 4-byte buffer comes back whole at width 4, where all of it is sent. begin sends no frame, and
transfer sends what the caller likes. That [0x88,0x08] and [0x90,0x10] are read as the clear operations is the
model's choice (log entry 5). -/
def Obligations.DecodeOfEncode : Prop :=
  ∀ (w : Width) (v : Byte) (i : Instr), i ≠ .beginOp →
    (∀ wbuf wLen rbuf rLen, i ≠ .transfer wbuf wLen rbuf rLen) →
    (∀ b0 b1 b2 b3, i = .writeDataRegister b0 b1 b2 b3 → w = 4) →
    decodeFrames w (encode w v i) = .ok (readingOf i)

/-- R55, R60: a frame that is read as an operation is exactly the frame that operation sends, at every width. -/
def Obligations.EncodeOfDecode : Prop :=
  ∀ (w : Width) (v : Byte) (f : List Byte) (i : Instr), decodeFrame w f = .ok i → encode w v i = [f]

/-- R64: frames that are read as one operation are the frames it sends for some MDR1 byte read. -/
def Obligations.EncodeOfDecodeFrames : Prop :=
  ∀ (w : Width) (fs : List (List Byte)) (i : Instr), decodeFrames w fs = .ok i → ∃ v, encode w v i = fs

/-- R59, R61: thirteen command bytes are formed; a frame that starts with one of the 243 others is no operation's. -/
def Obligations.NeverFormedCommandsRejected : Prop :=
  formedCommands.length = 13 ∧ formedCommands.Nodup ∧
  ∀ (w : Width) (c : Byte) (rest : List Byte), c ∉ formedCommands → ∃ e, decodeFrame w (c :: rest) = .error e

/-- R56: byte `k` of a frame of `n` bytes stands at bits `[8(n-k)-1 : 8(n-k-1)]` of the `8n`-bit number. -/
def Obligations.FrameBytePositions : Prop :=
  ∀ (f : List Byte), frameNumber f < 2 ^ (8 * f.length) ∧
    ∀ (k : Nat) (h : k < f.length), frameNumber f / 2 ^ (8 * (f.length - k - 1)) % 2 ^ 8 = (f[k]).toNat

/-- R35: the settings say most-significant bit first, and the wire then carries bit 7 first. -/
def Obligations.WireIsMostSignificantFirst : Prop :=
  ∀ b : Byte, wireBits Config.settings.bitOrder b =
    [b.getLsbD 7, b.getLsbD 6, b.getLsbD 5, b.getLsbD 4, b.getLsbD 3, b.getLsbD 2, b.getLsbD 1, b.getLsbD 0]

/-- R63, R127: a frame of an operation of the block's own has at most 5 bytes, and the clock needs 80 microseconds for
each of them. -/
def Obligations.OwnFrameTimes : Prop :=
  ∀ (w : Width) (v : Byte) (i : Instr), (∀ wbuf wLen rbuf rLen, i ≠ .transfer wbuf wLen rbuf rLen) →
    ∀ f ∈ encode w v i, (f.length = 1 ∨ f.length = 2 ∨ f.length = 1 + w.val ∨ (i = .defaultConfiguration ∧ f.length = 5)) ∧
      minSclkMicros Config.settings f.length = 80 * f.length ∧ minSclkMicros Config.settings f.length ≤ 400

/-- R55, R57, R64: an operation that completes has sent exactly the frames of its encoding, at the width before it and
with the MDR1 byte it received, and no other frame. -/
def Obligations.OperationsSendTheirEncoding : Prop :=
  ∀ (i : Instr) (s t : State), s.inTxn = false → exec i s = .next t → t.inTxn = false →
    sentFrames (t.events.drop s.events.length) =
      encode s.width ((s.replyAt (mdr1Transfer i)).getD 0) i

/-! ### Steps, reset, invariant -/

/-- R30: construction, for every line the constructor may be given and every default of the bus; State.reset is one such
construction. -/
def Obligations.ConstructionState : Prop :=
  (∀ (line : Option LineId) (busDefault : LineId),
    let s := State.construct line busDefault
    s.width = 0 ∧ s.settings = { clockHz := 100000, bitOrder := .msbFirst, mode := .mode0 } ∧
    (∀ l, line = some l → s.csLine = l) ∧ (line = none → s.csLine = busDefault) ∧
    s.cs = .undriven ∧ s.bus = .unclaimed ∧ s.phase = .constructed ∧ s.inTxn = false) ∧
  ∃ line busDefault, State.reset = State.construct line busDefault

/-- R20, R28: the operation presented next runs, and the others stay presented. -/
def Obligations.StepRunsPresentedOperation : Prop :=
  ∀ (s : State) (i : Instr) (rest : List Instr), s.inTxn = false → s.pending = i :: rest →
    step s = exec i { s with pending := rest }

/-- A word that the decoder reads is run as exactly its operation, on a handle that is Ready (the model's presentation
of table words, log entry 4). -/
def Obligations.StepRunsDecodedWord : Prop :=
  ∀ (s : State) (nbits w : Nat) (i : Instr), decodeTableWord nbits w = some i →
    step (s.withFetchWord nbits w) = exec i (openedHandle s) ∧ (openedHandle s).Ready ∧
      (openedHandle s).width = s.width ∧ (openedHandle s).replies = s.replies ∧
      (openedHandle s).pending = s.pending ∧ (s.Ready → openedHandle s = s)

/-- Where nothing is presented nothing happens (the model's choice, log entry 4). -/
def Obligations.IdleStepChangesNothing : Prop :=
  ∀ s : State, s.pending = [] → step s = .next s

/-- R72: in a handle whose transfer is stalled nothing happens any more, whatever is presented (that this is a step to
the same state is the model's form of "no step is enabled", log entry 2). -/
def Obligations.StalledHandleIsStuck : Prop :=
  ∀ s : State, s.inTxn = true → step s = .next s ∧
    ∀ i t, exec i s = .next t → t = s

/-- R14, R16, R18, R19, R22, R67: every step keeps the handle invariant: the whole event list follows the protocol of frames and
lifecycle, and the fields say where it stands. -/
def Obligations.StepKeepsHandleInvariant : Prop :=
  ∀ s t : State, s.Inv → step s = .next t → t.Inv

/-- R30: the invariant holds after construction, at reset. -/
def Obligations.ResetMeetsHandleInvariant : Prop :=
  State.reset.Inv ∧ ∀ line busDefault, (State.construct line busDefault).Inv

/-! ### Rules about every operation -/

/-- R97: outside its phase every operation is refused. -/
def Obligations.OutsidePhaseIsRefused : Prop :=
  ∀ (i : Instr) (s : State), i.wellFormed = true →
    (i ≠ .beginOp → s.phase ≠ .active → exec i s = .refused (.outsidePhase s.phase)) ∧
    (i = .beginOp → s.phase ≠ .constructed → exec i s = .refused (.outsidePhase s.phase))

/-- R97, R98, R106, R112: in its phase every operation answers a next state, no refusal and no fault, whatever the width,
the operands and the bus. A stalled handle is included: there R72 enables nothing, and that exec then answers the
unchanged state is the model's choice (DESIGN CHOICE, log entry 2); nothing runs in it. -/
def Obligations.AdmittedOperationRuns : Prop :=
  ∀ (i : Instr) (s : State), i.wellFormed = true →
    s.phase = (if i = .beginOp then .constructed else .active) → ∃ t, exec i s = .next t

/-- A transfer whose buffers have not the lengths given with them stops by name (the model's choice, log entry 10). -/
def Obligations.MismatchedBuffersStop : Prop :=
  ∀ (i : Instr) (s : State), i.wellFormed = false → exec i s = .refused .lengthMismatch

/-- R15: configure, and defaultConfiguration through it, are the only writers of the width. -/
def Obligations.OnlyConfigureWritesWidth : Prop :=
  ∀ (i : Instr) (s t : State), exec i s = .next t →
    ((∀ m0 m1, i ≠ .configure m0 m1) → i ≠ .defaultConfiguration → t.width = s.width) ∧
    (∀ m0 m1, i = .configure m0 m1 → t.width = s.width ∨ (t.inTxn = false ∧ t.width = widthOf m1)) ∧
    (i = .defaultConfiguration → t.width = s.width ∨ t.width = 4)

/-- The operations that read the width (R15). -/
def Sys2Proof.Machine.readsWidth : Instr → Bool
  | .writeDataRegister _ _ _ _ => true
  | .readOutputRegister => true
  | .readCounter => true
  | .readDataRegister => true
  | .transfer _ _ _ _ => false
  | .writeMode0 _ => false
  | .writeMode1 _ => false
  | .loadCounterFromData => false
  | .loadOutputFromCounter => false
  | .readMode0 => false
  | .readMode1 => false
  | .readStatus => false
  | .clearMode0 => false
  | .clearMode1 => false
  | .clearCounter => false
  | .clearStatus => false
  | .configure _ _ => false
  | .enable => false
  | .disable => false
  | .defaultConfiguration => false
  | .beginOp => false
  | .endOp => false

/-- R15: the four multi-byte operations are the only readers of the width: what any other operation does is the same at
every width (defaultConfiguration writes its own before it uses one). R15 does not say what the two runs receive: that
they receive equal bytes past the listed answers is the model's choice (DESIGN CHOICE, log entry 26), and so is that a
transfer which fails leaves equal unspecified bytes in both (R66, R99 leave them open; DESIGN CHOICE, log entry 28). -/
def Obligations.OnlyMultiByteOperationsReadWidth : Prop :=
  ∀ (i : Instr) (s t : State) (w : Width), readsWidth i = false → exec i s = .next t →
    ∃ t', exec i { s with width := w } = .next t' ∧ { t' with width := t.width } = t

/-- R16, R17: no operation changes the settings or the line. R20, R28: nor does one touch what is still presented, which
is the model's own field (DESIGN CHOICE, log entry 4). -/
def Obligations.ConstantsNeverChange : Prop :=
  ∀ (i : Instr) (s t : State), exec i s = .next t →
    t.settings = s.settings ∧ t.csLine = s.csLine ∧ t.pending = s.pending

/-- A success bit that is true. -/
def Sys2Proof.Machine.isTrue (r : Result) : Bool := r == .ok true

/-- A byte. -/
def Sys2Proof.Machine.isU8 : Result → Bool
  | .u8 _ => true
  | .transfer _ _ => false
  | .ok _ => false
  | .u32 _ => false
  | .i32 _ => false
  | .noValue => false

/-- An unsigned 32-bit value. -/
def Sys2Proof.Machine.isU32 : Result → Bool
  | .u32 _ => true
  | .transfer _ _ => false
  | .ok _ => false
  | .u8 _ => false
  | .i32 _ => false
  | .noValue => false

/-- A signed value of 32 bits. -/
def Sys2Proof.Machine.isI32 : Result → Bool
  | .i32 v => decide (-(2 ^ 31) ≤ v ∧ v < 2 ^ 31)
  | .transfer _ _ => false
  | .ok _ => false
  | .u8 _ => false
  | .u32 _ => false
  | .noValue => false

/-- The answer of a transfer with this success bit and a read buffer of `n` bytes. -/
def Sys2Proof.Machine.isTransfer (success : Bool) (n : Nat) : Result → Bool
  | .transfer ok r => ok == success && r.length == n
  | .ok _ => false
  | .u8 _ => false
  | .u32 _ => false
  | .i32 _ => false
  | .noValue => false

/-- The kind of result that 30_encoding.md R64 gives an operation; the success bits of writes, loads and clears are
true (R24), that of a transfer says whether both buffers are present (R99), and its read buffer keeps its length. -/
def Sys2Proof.Machine.resultFits (i : Instr) (r : Result) : Bool :=
  match i with
  | .transfer wbuf _ rbuf _ =>
    isTransfer (wbuf.isSome && rbuf.isSome) ((rbuf.map List.length).getD 0) r
  | .writeMode0 _ => isTrue r
  | .writeMode1 _ => isTrue r
  | .writeDataRegister _ _ _ _ => isTrue r
  | .loadCounterFromData => isTrue r
  | .loadOutputFromCounter => isTrue r
  | .readMode0 => isU8 r
  | .readMode1 => isU8 r
  | .readStatus => isU8 r
  | .readOutputRegister => isI32 r
  | .readCounter => isU32 r
  | .readDataRegister => isI32 r
  | .clearMode0 => isTrue r
  | .clearMode1 => isTrue r
  | .clearCounter => isTrue r
  | .clearStatus => isTrue r
  | .configure _ _ => r == .noValue
  | .enable => r == .noValue
  | .disable => r == .noValue
  | .defaultConfiguration => r == .noValue
  | .beginOp => r == .noValue
  | .endOp => r == .noValue

/-- R22, R24, R28: events are only appended; an operation either completes, with exactly one result, of its kind, or is stuck
inside a frame, with none. The read buffer that a failed transfer shows, of which R66 says only (false, ANY), keeps its
length by the model's choice (log entry 7), and is empty where none was given (DESIGN CHOICE, log entry 23). -/
def Obligations.EveryOperationHasOneResult : Prop :=
  ∀ (i : Instr) (s t : State), s.inTxn = false → exec i s = .next t →
    (∃ es, t.events = s.events ++ es) ∧
    ((t.inTxn = false ∧ ∃ r, resultFits i r = true ∧ t.results = s.results ++ [r]) ∨
      (t.inTxn = true ∧ t.cs = .low ∧ t.results = s.results))

/-! ### The transfer primitive (40_framing.md, 60_exceptions.md) -/

/-- R66, R67, R69, R70: a transfer with both buffers is one frame: the caller's bytes, then a zero byte for each byte to be read;
the bytes received with the latter are the result, those received with the former reach nothing. -/
def Obligations.TransferCompletes : Prop :=
  ∀ (s : State) (w old bs : List Byte), s.Ready → s.nextReplies (w.length + old.length) = some bs →
    exec (.transfer (some w) w.length (some old) old.length) s =
      .next (s.completed
        (frameEvents s.csLine s.settings (w ++ List.replicate old.length 0x00) bs)
        (w.length + old.length) (.transfer true (bs.drop w.length)))

/-- R99, R105: with a buffer absent the transfer answers false: no event, nothing of the block changed, whichever buffer is absent
and whatever the bus would do; what the read buffer then holds is not said. No other operation answers so. That not even
a chip-select edge is emitted is the spec's own inference (92 D5, marked INFERRED; log entry 13). -/
def Obligations.AbsentBufferFails : Prop :=
  (∀ (s : State) (wbuf rbuf : Option (List Byte)) (wLen rLen : Nat), s.Ready →
    (Instr.transfer wbuf wLen rbuf rLen).wellFormed = true → (wbuf = none ∨ rbuf = none) →
    ∃ rest, exec (.transfer wbuf wLen rbuf rLen) s =
      .next { s with results := s.results ++ [.transfer false rest], staleDraws := s.staleDraws + 1 }) ∧
  ∀ (i : Instr) (s t : State) (rest : List Byte), (∀ wbuf wLen rbuf rLen, i ≠ .transfer wbuf wLen rbuf rLen) →
    exec i s = .next t → .transfer false rest ∉ t.results.drop s.results.length ∧ t.staleDraws = s.staleDraws

/-- R72: where a byte transfer never returns, the operation stops inside the frame, with the line Low and no result, and no
step gets it out. That the transfer which stalls shows no Byte event and uses up no answer is the model's inference
(DEDUCED, log entry 3), and that being stuck is a step to the same state is the model's form (DESIGN CHOICE, log
entry 2). -/
def Obligations.StalledTransferIsStuck : Prop :=
  ∀ (s : State) (w old bs : List Byte) (k : Nat), s.Ready → k < w.length + old.length →
    s.nextReplies k = some bs → s.replyAt k = none →
    ∃ t, exec (.transfer (some w) w.length (some old) old.length) s = .next t ∧
      t = s.stalled (openFrameEvents s.csLine s.settings (w ++ List.replicate old.length 0x00) bs) k ∧
      step t = .next t

/-! ### Register writes and loads (41_write.md, 42_load.md) -/

/-- R73, R74: the settings byte is sent unchanged; the width stays, although MDR1's bits 1:0 are the device's width. -/
def Obligations.WriteModeCompletes : Prop :=
  ∀ (s : State) (d x y : Byte), s.Ready → s.nextReplies 2 = some [x, y] →
    exec (.writeMode0 d) s =
      .next (s.completed (frameEvents s.csLine s.settings [0x88, d] [x, y]) 2 (.ok true)) ∧
    exec (.writeMode1 d) s =
      .next (s.completed (frameEvents s.csLine s.settings [0x90, d] [x, y]) 2 (.ok true))

/-- R75: the first `st.width` bytes of the buffer are sent, in buffer order. -/
def Obligations.WriteDataRegisterCompletes : Prop :=
  ∀ (s : State) (b0 b1 b2 b3 : Byte) (bs : List Byte), s.Ready → s.nextReplies (1 + s.width.val) = some bs →
    exec (.writeDataRegister b0 b1 b2 b3) s =
      .next (s.completed
        (frameEvents s.csLine s.settings (0x98 :: [b0, b1, b2, b3].take s.width.val) bs)
        (1 + s.width.val) (.ok true))

/-- R76, R77: the load commands are one byte at every width; in the reference device they copy DTR to CNTR and CNTR to OTR
(R48). -/
def Obligations.LoadsComplete : Prop :=
  (∀ (s : State) (x : Byte), s.Ready → s.nextReplies 1 = some [x] →
    exec .loadCounterFromData s =
      .next (s.completed (frameEvents s.csLine s.settings [0xE0] [x]) 1 (.ok true)) ∧
    exec .loadOutputFromCounter s =
      .next (s.completed (frameEvents s.csLine s.settings [0xE8] [x]) 1 (.ok true))) ∧
  ∀ d : RefDev, d.onFrame [0xE0] = some { d with cntr := d.dtr } ∧
    d.onFrame [0xE8] = some { d with otr := d.cntr }

/-! ### Register reads (43_read.md) -/

/-- R78, R79, R80: one byte is read at every width, the one received with the dummy byte. -/
def Obligations.SingleByteReadsComplete : Prop :=
  ∀ (s : State) (x y : Byte), s.Ready → s.nextReplies 2 = some [x, y] →
    exec .readMode0 s =
      .next (s.completed (frameEvents s.csLine s.settings [0x48, 0x00] [x, y]) 2 (.u8 y)) ∧
    exec .readMode1 s =
      .next (s.completed (frameEvents s.csLine s.settings [0x50, 0x00] [x, y]) 2 (.u8 y)) ∧
    exec .readStatus s =
      .next (s.completed (frameEvents s.csLine s.settings [0x70, 0x00] [x, y]) 2 (.u8 y))

/-- R82, R83, R84: `st.width` bytes are read and assembled; OTR and DTR are read as signed, CNTR is not. -/
def Obligations.MultiByteReadsComplete : Prop :=
  ∀ (s : State) (x : Byte) (r : List Byte), s.Ready → s.nextReplies (1 + s.width.val) = some (x :: r) →
    exec .readOutputRegister s =
      .next (s.completed
        (frameEvents s.csLine s.settings (0x68 :: List.replicate s.width.val 0x00) (x :: r))
        (1 + s.width.val) (.i32 (toSigned32 (assemble r)))) ∧
    exec .readCounter s =
      .next (s.completed
        (frameEvents s.csLine s.settings (0x60 :: List.replicate s.width.val 0x00) (x :: r))
        (1 + s.width.val) (.u32 (assemble r))) ∧
    exec .readDataRegister s =
      .next (s.completed
        (frameEvents s.csLine s.settings (0x58 :: List.replicate s.width.val 0x00) (x :: r))
        (1 + s.width.val) (.i32 (toSigned32 (assemble r))))

/-- R100: before the first configure the multi-byte operations move no payload and are no error. -/
def Obligations.UnconfiguredWidthMovesNothing : Prop :=
  ∀ (s : State) (x b0 b1 b2 b3 : Byte), s.Ready → s.width = 0 → s.nextReplies 1 = some [x] →
    exec (.writeDataRegister b0 b1 b2 b3) s =
      .next (s.completed (frameEvents s.csLine s.settings [0x98] [x]) 1 (.ok true)) ∧
    exec .readOutputRegister s =
      .next (s.completed (frameEvents s.csLine s.settings [0x68] [x]) 1 (.i32 0)) ∧
    exec .readCounter s =
      .next (s.completed (frameEvents s.csLine s.settings [0x60] [x]) 1 (.u32 0)) ∧
    exec .readDataRegister s =
      .next (s.completed (frameEvents s.csLine s.settings [0x58] [x]) 1 (.i32 0))

/-- R81: big-endian assembly: nothing gives 0, one more byte shifts by 8 and is OR-ed in, and the value is the sum of the bytes
times the powers of 256, the first byte the most significant, modulo 2^32 and exactly for up to 4 bytes. -/
def Obligations.AssemblyIsBigEndian : Prop :=
  assemble [] = 0 ∧
  (∀ (bs : List Byte) (b : Byte), assemble (bs ++ [b]) = (assemble bs <<< 8) ||| b.setWidth 32) ∧
  (∀ bs : List Byte, (assemble bs).toNat =
    (∑ i : Fin bs.length, (bs[i]).toNat * 256 ^ (bs.length - 1 - i.val)) % 2 ^ 32) ∧
  ∀ bs : List Byte, bs.length ≤ 4 →
    (assemble bs).toNat = ∑ i : Fin bs.length, (bs[i]).toNat * 256 ^ (bs.length - 1 - i.val) ∧
    (assemble bs).toNat < 256 ^ bs.length

/-- R85: the signed and the unsigned reading are of the same 32-bit pattern, lie in their ranges, agree below width 4, and differ
at width 4 exactly where the first byte is 0x80 or more. -/
def Obligations.SignedReading : Prop :=
  (∀ u : Word, -(2 ^ 31) ≤ toSigned32 u ∧ toSigned32 u < 2 ^ 31 ∧ toSigned32 u % 2 ^ 32 = (u.toNat : Int)) ∧
  (∀ bs : List Byte, bs.length < 4 → toSigned32 (assemble bs) = ((assemble bs).toNat : Int)) ∧
  ∀ b0 b1 b2 b3 : Byte, toSigned32 (assemble [b0, b1, b2, b3]) < 0 ↔ 0x80 ≤ b0.toNat

/-! ### Clears (44_clear.md) -/

/-- R86, R87, R124: the clear-mode quirk: write frames with the Clear code as data, the same as writing that byte; the width
stays. -/
def Obligations.ClearModesComplete : Prop :=
  (∀ (s : State) (x y : Byte), s.Ready → s.nextReplies 2 = some [x, y] →
    exec .clearMode0 s =
      .next (s.completed (frameEvents s.csLine s.settings [0x88, 0x08] [x, y]) 2 (.ok true)) ∧
    exec .clearMode1 s =
      .next (s.completed (frameEvents s.csLine s.settings [0x90, 0x10] [x, y]) 2 (.ok true))) ∧
  ∀ s : State, exec .clearMode0 s = exec (.writeMode0 0x08) s ∧ exec .clearMode1 s = exec (.writeMode1 0x10) s

/-- R88, R89: the true Clear commands are one byte at every width; in the reference device they zero CNTR and STR (R48). -/
def Obligations.ClearCommandsComplete : Prop :=
  (∀ (s : State) (x : Byte), s.Ready → s.nextReplies 1 = some [x] →
    exec .clearCounter s =
      .next (s.completed (frameEvents s.csLine s.settings [0x20] [x]) 1 (.ok true)) ∧
    exec .clearStatus s =
      .next (s.completed (frameEvents s.csLine s.settings [0x30] [x]) 1 (.ok true))) ∧
  ∀ d : RefDev, d.onFrame [0x20] = some { d with cntr := 0 } ∧ d.onFrame [0x30] = some { d with str := 0 }

/-! ### Configuration (45_config.md) -/

/-- R90: the width map, row by row, as a formula, and its indifference to bits 7:2. -/
def Obligations.WidthMap : Prop :=
  widthOf 0x00 = 4 ∧ widthOf 0x01 = 3 ∧ widthOf 0x02 = 2 ∧ widthOf 0x03 = 1 ∧
  ∀ m : Byte, (widthOf m).val = 4 - (m &&& 0x03).toNat ∧ widthOf m = widthOf (m &&& 0x03)

/-- R91: MDR0, then MDR1, in two frames, then the width. -/
def Obligations.ConfigureCompletes : Prop :=
  ∀ (s : State) (m0 m1 x0 x1 x2 x3 : Byte), s.Ready → s.nextReplies 4 = some [x0, x1, x2, x3] →
    exec (.configure m0 m1) s =
      .next { s.completed
        (frameEvents s.csLine s.settings [0x88, m0] [x0, x1] ++
          frameEvents s.csLine s.settings [0x90, m1] [x2, x3]) 4 .noValue with
        width := widthOf m1 }

/-- 45_config.md (its opening): where a frame of configure stalls, the later steps do not happen, the width among them. -/
def Obligations.StalledConfigureKeepsWidth : Prop :=
  ∀ (s : State) (m0 m1 : Byte) (k : Nat) (bs : List Byte), s.Ready → k < 4 → s.nextReplies k = some bs →
    s.replyAt k = none →
    ∃ t, exec (.configure m0 m1) s = .next t ∧ t.inTxn = true ∧ t.cs = .low ∧ t.width = s.width ∧
      t.results = s.results ∧ t.drawn = s.drawn + k ∧
      sentFrames (t.events.drop s.events.length) = (if k < 2 then [] else [[0x88, m0]])

/-- R92, R93: MDR1 is read and always written back, with bit 2 clear (enable) or set (disable) and every other bit as read. -/
def Obligations.EnableDisableComplete : Prop :=
  (∀ (s : State) (x0 v x2 x3 : Byte), s.Ready → s.nextReplies 4 = some [x0, v, x2, x3] →
    exec .enable s =
      .next (s.completed
        (frameEvents s.csLine s.settings [0x50, 0x00] [x0, v] ++
          frameEvents s.csLine s.settings [0x90, v &&& 0xFB] [x2, x3]) 4 .noValue) ∧
    exec .disable s =
      .next (s.completed
        (frameEvents s.csLine s.settings [0x50, 0x00] [x0, v] ++
          frameEvents s.csLine s.settings [0x90, v ||| 0x04] [x2, x3]) 4 .noValue)) ∧
  ∀ (v : Byte) (k : Nat), k < 8 →
    (v &&& 0xFB).getLsbD k = (if k = 2 then false else v.getLsbD k) ∧
    (v ||| 0x04).getLsbD k = (if k = 2 then true else v.getLsbD k)

/-- R94: the seven frames of defaultConfiguration, and width 4. The two default settings bytes 0x03 and 0x00 are the spec's own
decisions D10 and D11 (log entry 8). -/
def Obligations.DefaultConfigurationCompletes : Prop :=
  ∀ (s : State) (x0 x1 x2 x3 x4 x5 x6 x7 x8 x9 x10 x11 v x13 x14 : Byte), s.Ready →
    s.nextReplies 15 = some [x0, x1, x2, x3, x4, x5, x6, x7, x8, x9, x10, x11, v, x13, x14] →
    exec .defaultConfiguration s =
      .next { s.completed
        (frameEvents s.csLine s.settings [0x88, 0x03] [x0, x1] ++
          frameEvents s.csLine s.settings [0x90, 0x00] [x2, x3] ++
          frameEvents s.csLine s.settings [0x98, 0x00, 0x00, 0x00, 0x00] [x4, x5, x6, x7, x8] ++
          frameEvents s.csLine s.settings [0x20] [x9] ++
          frameEvents s.csLine s.settings [0xE0] [x10] ++
          frameEvents s.csLine s.settings [0x50, 0x00] [x11, v] ++
          frameEvents s.csLine s.settings [0x90, v &&& 0xFB] [x13, x14]) 15 .noValue with
        width := 4 }

/-! ### Lifecycle (46_lifecycle.md) -/

/-- R95, R114: begin claims the bus and the pin and deselects; no frame is sent and the width is not touched. -/
def Obligations.BeginCompletes : Prop :=
  ∀ s : State, s.phase = .constructed → s.inTxn = false →
    exec .beginOp s =
      .next { s with
        events := s.events ++ [.busClaim, .pinOut s.csLine, .cs s.csLine .high]
        results := s.results ++ [.noValue]
        bus := .claimed
        cs := .high
        phase := .active }

/-- R96, R115: end clears the counter, disables counting, releases the bus and the pin; the width keeps its value. -/
def Obligations.EndCompletes : Prop :=
  ∀ (s : State) (x0 x1 v x3 x4 : Byte), s.Ready → s.nextReplies 5 = some [x0, x1, v, x3, x4] →
    exec .endOp s =
      .next { s.completed
        (frameEvents s.csLine s.settings [0x20] [x0] ++
          frameEvents s.csLine s.settings [0x50, 0x00] [x1, v] ++
          frameEvents s.csLine s.settings [0x90, v ||| 0x04] [x3, x4] ++
          [.busRelease, .pinHiZ s.csLine]) 5 .noValue with
        bus := .unclaimed
        cs := .undriven
        phase := .ended }

/-! ### With the reference device at the far end (20_memory.md R47 to R49) -/

/-- R49: REFDEV constrains no byte that the block discards (the write phase), whatever was sent, and in a transfer of the
caller's bytes it constrains nothing that is not captured. A byte that is captured is predicted as R49 says: the three
one-byte registers at position 1. -/
def Obligations.DiscardedBytesUnconstrained : Prop :=
  (∀ (d : RefDev) (written : Nat) (sent : List Byte) (k : Nat), k < sent.length → k < written →
    (d.answer written sent)[k]? = some none) ∧
  (∀ (d : RefDev) (w received : List Byte), received.length = w.length →
    agrees (d.answer w.length w) received = true) ∧
  ∀ d : RefDev, d.answer 1 [0x48, 0x00] = [none, some d.m0] ∧ d.answer 1 [0x50, 0x00] = [none, some d.m1] ∧
    d.answer 1 [0x70, 0x00] = [none, some d.str]

/-- R49: for a multi-byte read at the device's width the captured byte `1 + i` is bits `8(devW-1-i)+7 : 8(devW-1-i)` of the
register. -/
def Obligations.DeviceAnswersBigEndian : Prop :=
  ∀ (d : RefDev) (i : Nat), i < d.devW.val →
    (d.answer 1 (0x60 :: zeros d.devW.val))[1 + i]? =
      some (some ((d.cntr >>> (8 * (d.devW.val - 1 - i))).setWidth 8)) ∧
    (d.answer 1 (0x58 :: zeros d.devW.val))[1 + i]? =
      some (some ((d.dtr >>> (8 * (d.devW.val - 1 - i))).setWidth 8)) ∧
    (d.answer 1 (0x68 :: zeros d.devW.val))[1 + i]? =
      some (some ((d.otr >>> (8 * (d.devW.val - 1 - i))).setWidth 8))

/-- R66, R68, R69: the write phase of each frame an operation sends: it lies within the frame, and what follows it are the
dummy bytes of the read phase. -/
def Obligations.WritePhasesFitEncoding : Prop :=
  ∀ (w : Width) (v : Byte) (i : Instr), i.wellFormed = true →
    (writePhases w i).length = (encode w v i).length ∧
    ∀ p ∈ (writePhases w i).zip (encode w v i),
      p.1 ≤ p.2.length ∧ p.2.drop p.1 = List.replicate (p.2.length - p.1) 0x00

/-- R49, R83, R85: with REFDEV behind the bus and the widths in agreement, the multi-byte reads return the low bytes of its registers,
and the single-byte reads its three bytes. -/
def Obligations.ReadsReturnDeviceRegisters : Prop :=
  ∀ (d : RefDev) (i : Instr) (s t : State), s.Ready → widthAgrees d s → exec i s = .next t → t.inTxn = false →
    answersAsRefDev d (writePhases s.width i) (t.events.drop s.events.length) →
    (i = .readMode0 → t.results = s.results ++ [.u8 d.m0]) ∧
    (i = .readMode1 → t.results = s.results ++ [.u8 d.m1]) ∧
    (i = .readStatus → t.results = s.results ++ [.u8 d.str]) ∧
    (i = .readCounter → ∃ u : Word, t.results = s.results ++ [.u32 u] ∧
      u.toNat = d.cntr.toNat % 256 ^ s.width.val) ∧
    (i = .readDataRegister → ∃ u : Word, t.results = s.results ++ [.i32 (toSigned32 u)] ∧
      u.toNat = d.dtr.toNat % 256 ^ s.width.val) ∧
    (i = .readOutputRegister → ∃ u : Word, t.results = s.results ++ [.i32 (toSigned32 u)] ∧
      u.toNat = d.otr.toNat % 256 ^ s.width.val)

/-- R48, 95_test_vectors.md S4: a value written to DTR and loaded into the counter is read back from it, zero-extended, at every
width. -/
def Obligations.CounterRoundTrip : Prop :=
  ∀ (d : RefDev) (b0 b1 b2 b3 : Byte) (s t1 t2 t3 : State), s.Ready → widthAgrees d s →
    exec (.writeDataRegister b0 b1 b2 b3) s = .next t1 → exec .loadCounterFromData t1 = .next t2 →
    exec .readCounter t2 = .next t3 → t3.inTxn = false →
    answersAsRefDev d
      (writePhases s.width (.writeDataRegister b0 b1 b2 b3) ++ writePhases t1.width .loadCounterFromData ++
        writePhases t2.width .readCounter)
      (t3.events.drop s.events.length) →
    t3.results = s.results ++
      [.ok true, .ok true, .u32 (assemble ([b0, b1, b2, b3].take s.width.val))]

/-- R88, 95_test_vectors.md S6: after clearCounter the counter reads 0, whatever it held, at every width. -/
def Obligations.ClearedCounterReadsZero : Prop :=
  ∀ (d : RefDev) (s t1 t2 : State), s.Ready → widthAgrees d s →
    exec .clearCounter s = .next t1 → exec .readCounter t1 = .next t2 → t2.inTxn = false →
    answersAsRefDev d (writePhases s.width .clearCounter ++ writePhases t1.width .readCounter)
      (t2.events.drop s.events.length) →
    t2.results = s.results ++ [.ok true, .u32 0]

/-- R92, R93, 95_test_vectors.md S5: on REFDEV enable and disable change bit 2 of MDR1 and nothing else of the device, so the
widths stay in agreement. -/
def Obligations.EnableDisableOnDevice : Prop :=
  ∀ (d : RefDev) (i : Instr) (s t : State), s.Ready → widthAgrees d s → exec i s = .next t → t.inTxn = false →
    answersAsRefDev d (writePhases s.width i) (t.events.drop s.events.length) →
    (i = .enable → deviceAfter (some d) (framesOf (t.events.drop s.events.length)) =
      some { d with m1 := d.m1 &&& 0xFB } ∧ widthAgrees { d with m1 := d.m1 &&& 0xFB } t) ∧
    (i = .disable → deviceAfter (some d) (framesOf (t.events.drop s.events.length)) =
      some { d with m1 := d.m1 ||| 0x04 } ∧ widthAgrees { d with m1 := d.m1 ||| 0x04 } t)

/-- R91, R119, R48: configure brings the widths into agreement on REFDEV; clearMode1 and writeMode1 leave the block's width alone, so
they break the agreement exactly where the new MDR1 names another width. -/
def Obligations.WidthAgreement : Prop :=
  ∀ (d : RefDev) (i : Instr) (s t : State), s.Ready → exec i s = .next t → t.inTxn = false →
    (∀ m0 m1, i = .configure m0 m1 →
      deviceAfter (some d) (framesOf (t.events.drop s.events.length)) =
        some { d with m0 := m0, m1 := m1 } ∧ widthAgrees { d with m0 := m0, m1 := m1 } t) ∧
    (i = .clearMode1 →
      deviceAfter (some d) (framesOf (t.events.drop s.events.length)) = some { d with m1 := 0x10 } ∧
      (widthAgrees { d with m1 := 0x10 } t ↔ s.width = 4)) ∧
    (∀ x, i = .writeMode1 x →
      deviceAfter (some d) (framesOf (t.events.drop s.events.length)) = some { d with m1 := x } ∧
      (widthAgrees { d with m1 := x } t ↔ widthOf x = s.width))

/-! ### Several handles on one bus (40_framing.md R71, 60_exceptions.md R109) -/

/-- R39, R71: whatever order the environment chooses, handles that interleave whole frames keep every frame exclusive, also where a
stall leaves one open. That another handle's events outside frames stay out of a frame too is the model's choice (DESIGN
CHOICE, log entry 25). -/
def Obligations.WovenFramesAreExclusive : Prop :=
  ∀ (schedule : List Nat) (logs : List (List Event)), exclusive (weave schedule (logs.map segments)) = true

/-- R44, R109: in every order the environment chooses, each handle's events come in its own order, from the first on and none twice. -/
def Obligations.WeaveKeepsHandleOrder : Prop :=
  (∀ es : List Event, (segments es).flatten = es) ∧
  ∀ (schedule : List Nat) (logs : List (List Event)) (h : Nat) (es : List Event), logs[h]? = some es →
    ∃ later, eventsOf h (weave schedule (logs.map segments)) ++ later = es

/-- R40, R120: an operation's own event list is cut at its frames only: a composite operation may be interrupted between its frames,
a frame nowhere. -/
def Obligations.FrameIsOnePiece : Prop :=
  ∀ (line : LineId) (settings : Settings) (sent received : List Byte) (rest : List Event),
    segments (frameEvents line settings sent received ++ rest) =
      frameEvents line settings sent received :: segments rest
end

