-- ==== Sys2Proof/Laws/State.lean ====
section
/-! SUPPORT. One lemma per field per update of the state, true by rfl, so that no later proof unfolds a record update. -/

namespace Sys2Proof.Machine

/-! ### emit -/

@[simp] theorem State.emit_width (s : State) (e : Event) :
    (s.emit e).width = s.width := rfl
@[simp] theorem State.emit_settings (s : State) (e : Event) :
    (s.emit e).settings = s.settings := rfl
@[simp] theorem State.emit_csLine (s : State) (e : Event) :
    (s.emit e).csLine = s.csLine := rfl
@[simp] theorem State.emit_cs (s : State) (e : Event) :
    (s.emit e).cs = s.cs := rfl
@[simp] theorem State.emit_bus (s : State) (e : Event) :
    (s.emit e).bus = s.bus := rfl
@[simp] theorem State.emit_phase (s : State) (e : Event) :
    (s.emit e).phase = s.phase := rfl
@[simp] theorem State.emit_inTxn (s : State) (e : Event) :
    (s.emit e).inTxn = s.inTxn := rfl
@[simp] theorem State.emit_events (s : State) (e : Event) :
    (s.emit e).events = s.events ++ [e] := rfl
@[simp] theorem State.emit_results (s : State) (e : Event) :
    (s.emit e).results = s.results := rfl
@[simp] theorem State.emit_pending (s : State) (e : Event) :
    (s.emit e).pending = s.pending := rfl
@[simp] theorem State.emit_replies (s : State) (e : Event) :
    (s.emit e).replies = s.replies := rfl
@[simp] theorem State.emit_drawn (s : State) (e : Event) :
    (s.emit e).drawn = s.drawn := rfl
@[simp] theorem State.emit_staleDraws (s : State) (e : Event) :
    (s.emit e).staleDraws = s.staleDraws := rfl

/-! ### setWidth -/

@[simp] theorem State.setWidth_width (s : State) (w : Width) :
    (s.setWidth w).width = w := rfl
@[simp] theorem State.setWidth_settings (s : State) (w : Width) :
    (s.setWidth w).settings = s.settings := rfl
@[simp] theorem State.setWidth_csLine (s : State) (w : Width) :
    (s.setWidth w).csLine = s.csLine := rfl
@[simp] theorem State.setWidth_cs (s : State) (w : Width) :
    (s.setWidth w).cs = s.cs := rfl
@[simp] theorem State.setWidth_bus (s : State) (w : Width) :
    (s.setWidth w).bus = s.bus := rfl
@[simp] theorem State.setWidth_phase (s : State) (w : Width) :
    (s.setWidth w).phase = s.phase := rfl
@[simp] theorem State.setWidth_inTxn (s : State) (w : Width) :
    (s.setWidth w).inTxn = s.inTxn := rfl
@[simp] theorem State.setWidth_events (s : State) (w : Width) :
    (s.setWidth w).events = s.events := rfl
@[simp] theorem State.setWidth_results (s : State) (w : Width) :
    (s.setWidth w).results = s.results := rfl
@[simp] theorem State.setWidth_pending (s : State) (w : Width) :
    (s.setWidth w).pending = s.pending := rfl
@[simp] theorem State.setWidth_replies (s : State) (w : Width) :
    (s.setWidth w).replies = s.replies := rfl
@[simp] theorem State.setWidth_drawn (s : State) (w : Width) :
    (s.setWidth w).drawn = s.drawn := rfl
@[simp] theorem State.setWidth_staleDraws (s : State) (w : Width) :
    (s.setWidth w).staleDraws = s.staleDraws := rfl

/-! ### setCs -/

@[simp] theorem State.setCs_width (s : State) (c : CsDrive) :
    (s.setCs c).width = s.width := rfl
@[simp] theorem State.setCs_settings (s : State) (c : CsDrive) :
    (s.setCs c).settings = s.settings := rfl
@[simp] theorem State.setCs_csLine (s : State) (c : CsDrive) :
    (s.setCs c).csLine = s.csLine := rfl
@[simp] theorem State.setCs_cs (s : State) (c : CsDrive) :
    (s.setCs c).cs = c := rfl
@[simp] theorem State.setCs_bus (s : State) (c : CsDrive) :
    (s.setCs c).bus = s.bus := rfl
@[simp] theorem State.setCs_phase (s : State) (c : CsDrive) :
    (s.setCs c).phase = s.phase := rfl
@[simp] theorem State.setCs_inTxn (s : State) (c : CsDrive) :
    (s.setCs c).inTxn = s.inTxn := rfl
@[simp] theorem State.setCs_events (s : State) (c : CsDrive) :
    (s.setCs c).events = s.events := rfl
@[simp] theorem State.setCs_results (s : State) (c : CsDrive) :
    (s.setCs c).results = s.results := rfl
@[simp] theorem State.setCs_pending (s : State) (c : CsDrive) :
    (s.setCs c).pending = s.pending := rfl
@[simp] theorem State.setCs_replies (s : State) (c : CsDrive) :
    (s.setCs c).replies = s.replies := rfl
@[simp] theorem State.setCs_drawn (s : State) (c : CsDrive) :
    (s.setCs c).drawn = s.drawn := rfl
@[simp] theorem State.setCs_staleDraws (s : State) (c : CsDrive) :
    (s.setCs c).staleDraws = s.staleDraws := rfl

/-! ### setBus -/

@[simp] theorem State.setBus_width (s : State) (b : BusClaim) :
    (s.setBus b).width = s.width := rfl
@[simp] theorem State.setBus_settings (s : State) (b : BusClaim) :
    (s.setBus b).settings = s.settings := rfl
@[simp] theorem State.setBus_csLine (s : State) (b : BusClaim) :
    (s.setBus b).csLine = s.csLine := rfl
@[simp] theorem State.setBus_cs (s : State) (b : BusClaim) :
    (s.setBus b).cs = s.cs := rfl
@[simp] theorem State.setBus_bus (s : State) (b : BusClaim) :
    (s.setBus b).bus = b := rfl
@[simp] theorem State.setBus_phase (s : State) (b : BusClaim) :
    (s.setBus b).phase = s.phase := rfl
@[simp] theorem State.setBus_inTxn (s : State) (b : BusClaim) :
    (s.setBus b).inTxn = s.inTxn := rfl
@[simp] theorem State.setBus_events (s : State) (b : BusClaim) :
    (s.setBus b).events = s.events := rfl
@[simp] theorem State.setBus_results (s : State) (b : BusClaim) :
    (s.setBus b).results = s.results := rfl
@[simp] theorem State.setBus_pending (s : State) (b : BusClaim) :
    (s.setBus b).pending = s.pending := rfl
@[simp] theorem State.setBus_replies (s : State) (b : BusClaim) :
    (s.setBus b).replies = s.replies := rfl
@[simp] theorem State.setBus_drawn (s : State) (b : BusClaim) :
    (s.setBus b).drawn = s.drawn := rfl
@[simp] theorem State.setBus_staleDraws (s : State) (b : BusClaim) :
    (s.setBus b).staleDraws = s.staleDraws := rfl

/-! ### setPhase -/

@[simp] theorem State.setPhase_width (s : State) (p : Phase) :
    (s.setPhase p).width = s.width := rfl
@[simp] theorem State.setPhase_settings (s : State) (p : Phase) :
    (s.setPhase p).settings = s.settings := rfl
@[simp] theorem State.setPhase_csLine (s : State) (p : Phase) :
    (s.setPhase p).csLine = s.csLine := rfl
@[simp] theorem State.setPhase_cs (s : State) (p : Phase) :
    (s.setPhase p).cs = s.cs := rfl
@[simp] theorem State.setPhase_bus (s : State) (p : Phase) :
    (s.setPhase p).bus = s.bus := rfl
@[simp] theorem State.setPhase_phase (s : State) (p : Phase) :
    (s.setPhase p).phase = p := rfl
@[simp] theorem State.setPhase_inTxn (s : State) (p : Phase) :
    (s.setPhase p).inTxn = s.inTxn := rfl
@[simp] theorem State.setPhase_events (s : State) (p : Phase) :
    (s.setPhase p).events = s.events := rfl
@[simp] theorem State.setPhase_results (s : State) (p : Phase) :
    (s.setPhase p).results = s.results := rfl
@[simp] theorem State.setPhase_pending (s : State) (p : Phase) :
    (s.setPhase p).pending = s.pending := rfl
@[simp] theorem State.setPhase_replies (s : State) (p : Phase) :
    (s.setPhase p).replies = s.replies := rfl
@[simp] theorem State.setPhase_drawn (s : State) (p : Phase) :
    (s.setPhase p).drawn = s.drawn := rfl
@[simp] theorem State.setPhase_staleDraws (s : State) (p : Phase) :
    (s.setPhase p).staleDraws = s.staleDraws := rfl

/-! ### setInTxn -/

@[simp] theorem State.setInTxn_width (s : State) (b : Bool) :
    (s.setInTxn b).width = s.width := rfl
@[simp] theorem State.setInTxn_settings (s : State) (b : Bool) :
    (s.setInTxn b).settings = s.settings := rfl
@[simp] theorem State.setInTxn_csLine (s : State) (b : Bool) :
    (s.setInTxn b).csLine = s.csLine := rfl
@[simp] theorem State.setInTxn_cs (s : State) (b : Bool) :
    (s.setInTxn b).cs = s.cs := rfl
@[simp] theorem State.setInTxn_bus (s : State) (b : Bool) :
    (s.setInTxn b).bus = s.bus := rfl
@[simp] theorem State.setInTxn_phase (s : State) (b : Bool) :
    (s.setInTxn b).phase = s.phase := rfl
@[simp] theorem State.setInTxn_inTxn (s : State) (b : Bool) :
    (s.setInTxn b).inTxn = b := rfl
@[simp] theorem State.setInTxn_events (s : State) (b : Bool) :
    (s.setInTxn b).events = s.events := rfl
@[simp] theorem State.setInTxn_results (s : State) (b : Bool) :
    (s.setInTxn b).results = s.results := rfl
@[simp] theorem State.setInTxn_pending (s : State) (b : Bool) :
    (s.setInTxn b).pending = s.pending := rfl
@[simp] theorem State.setInTxn_replies (s : State) (b : Bool) :
    (s.setInTxn b).replies = s.replies := rfl
@[simp] theorem State.setInTxn_drawn (s : State) (b : Bool) :
    (s.setInTxn b).drawn = s.drawn := rfl
@[simp] theorem State.setInTxn_staleDraws (s : State) (b : Bool) :
    (s.setInTxn b).staleDraws = s.staleDraws := rfl

/-! ### takeReply -/

@[simp] theorem State.takeReply_width (s : State) :
    (s.takeReply).width = s.width := rfl
@[simp] theorem State.takeReply_settings (s : State) :
    (s.takeReply).settings = s.settings := rfl
@[simp] theorem State.takeReply_csLine (s : State) :
    (s.takeReply).csLine = s.csLine := rfl
@[simp] theorem State.takeReply_cs (s : State) :
    (s.takeReply).cs = s.cs := rfl
@[simp] theorem State.takeReply_bus (s : State) :
    (s.takeReply).bus = s.bus := rfl
@[simp] theorem State.takeReply_phase (s : State) :
    (s.takeReply).phase = s.phase := rfl
@[simp] theorem State.takeReply_inTxn (s : State) :
    (s.takeReply).inTxn = s.inTxn := rfl
@[simp] theorem State.takeReply_events (s : State) :
    (s.takeReply).events = s.events := rfl
@[simp] theorem State.takeReply_results (s : State) :
    (s.takeReply).results = s.results := rfl
@[simp] theorem State.takeReply_pending (s : State) :
    (s.takeReply).pending = s.pending := rfl
@[simp] theorem State.takeReply_replies (s : State) :
    (s.takeReply).replies = s.replies.tail := rfl
@[simp] theorem State.takeReply_drawn (s : State) :
    (s.takeReply).drawn = s.drawn + 1 := rfl
@[simp] theorem State.takeReply_staleDraws (s : State) :
    (s.takeReply).staleDraws = s.staleDraws := rfl

/-! ### takeStale -/

@[simp] theorem State.takeStale_width (s : State) :
    (s.takeStale).width = s.width := rfl
@[simp] theorem State.takeStale_settings (s : State) :
    (s.takeStale).settings = s.settings := rfl
@[simp] theorem State.takeStale_csLine (s : State) :
    (s.takeStale).csLine = s.csLine := rfl
@[simp] theorem State.takeStale_cs (s : State) :
    (s.takeStale).cs = s.cs := rfl
@[simp] theorem State.takeStale_bus (s : State) :
    (s.takeStale).bus = s.bus := rfl
@[simp] theorem State.takeStale_phase (s : State) :
    (s.takeStale).phase = s.phase := rfl
@[simp] theorem State.takeStale_inTxn (s : State) :
    (s.takeStale).inTxn = s.inTxn := rfl
@[simp] theorem State.takeStale_events (s : State) :
    (s.takeStale).events = s.events := rfl
@[simp] theorem State.takeStale_results (s : State) :
    (s.takeStale).results = s.results := rfl
@[simp] theorem State.takeStale_pending (s : State) :
    (s.takeStale).pending = s.pending := rfl
@[simp] theorem State.takeStale_replies (s : State) :
    (s.takeStale).replies = s.replies := rfl
@[simp] theorem State.takeStale_drawn (s : State) :
    (s.takeStale).drawn = s.drawn := rfl
@[simp] theorem State.takeStale_staleDraws (s : State) :
    (s.takeStale).staleDraws = s.staleDraws + 1 := rfl

end Sys2Proof.Machine
end

