-- ==== Sys2Proof/Laws/Ops.lean ====
section
/-! SUPPORT. For each shared operation, once, everything it can do: byte transfers, a frame, the transfer primitive, and admission. A proof about a meaning cites these instead of unfolding the operations. -/

namespace Sys2Proof.Machine

/-! ### Flow -/

section
variable {α β : Type}

@[simp] theorem Flow.andThen_done (a : α) (s : State) (k : α → State → Flow β) :
    (Flow.done a s).andThen k = k a s := rfl
@[simp] theorem Flow.andThen_stuck (s : State) (k : α → State → Flow β) :
    (Flow.stuck s).andThen k = .stuck s := rfl
@[simp] theorem Flow.giving_done (a : α) (s : State) (f : α → β) :
    (Flow.done a s).giving f = .done (f a) s := rfl
@[simp] theorem Flow.giving_stuck (s : State) (f : α → β) :
    (Flow.stuck s).giving f = .stuck s := rfl
end

@[simp] theorem Flow.finish_done (r : Result) (s : State) :
    (Flow.done r s).finish = { s with results := s.results ++ [r] } := rfl
@[simp] theorem Flow.finish_stuck (s : State) : (Flow.stuck s : Flow Result).finish = s := rfl

/-! ### Admission -/

theorem admittedIn_ready {s : State} (h : s.Ready) (body : State → Flow Result) :
    admittedIn .active body s = .next (body s).finish := by
  simp [admittedIn, h.1, h.2]

theorem admittedIn_stuck {p : Phase} {s : State} (hp : s.phase = p) (h : s.inTxn = true)
    (body : State → Flow Result) : admittedIn p body s = .next s := by
  simp [admittedIn, hp, h]

theorem admittedIn_refused {p : Phase} {s : State} (hp : s.phase ≠ p)
    (body : State → Flow Result) : admittedIn p body s = .refused (.outsidePhase s.phase) := by
  simp [admittedIn, hp]

/-- A next state of an admitted operation is the same state of a stuck handle, or the operation's own. -/
theorem admittedIn_next {p : Phase} {body : State → Flow Result} {s t : State}
    (h : admittedIn p body s = .next t) :
    s.phase = p ∧ ((s.inTxn = true ∧ t = s) ∨ (s.inTxn = false ∧ t = (body s).finish)) := by
  by_cases hp : s.phase = p
  · by_cases hi : s.inTxn = true
    · rw [admittedIn_stuck hp hi] at h
      exact ⟨hp, .inl ⟨hi, by injection h with h; exact h.symm⟩⟩
    · simp only [Bool.not_eq_true] at hi
      refine ⟨hp, .inr ⟨hi, ?_⟩⟩
      simp only [admittedIn, hp, hi] at h
      injection h with h
      exact h.symm
  · rw [admittedIn_refused hp] at h
    cases h

/-! ### The oracle -/

@[simp] theorem State.replyAt_emit (s : State) (e : Event) (k : Nat) :
    (s.emit e).replyAt k = s.replyAt k := rfl
@[simp] theorem State.replyAt_setCs (s : State) (c : CsDrive) (k : Nat) :
    (s.setCs c).replyAt k = s.replyAt k := rfl
@[simp] theorem State.replyAt_setInTxn (s : State) (b : Bool) (k : Nat) :
    (s.setInTxn b).replyAt k = s.replyAt k := rfl
@[simp] theorem State.replyAt_setWidth (s : State) (w : Width) (k : Nat) :
    (s.setWidth w).replyAt k = s.replyAt k := rfl

/-- The state after `n` more bytes received and these events. -/
def State.moved (s : State) (es : List Event) (n : Nat) : State :=
  { s with events := s.events ++ es, replies := s.replies.drop n, drawn := s.drawn + n }

@[simp] theorem State.replyAt_moved (s : State) (es : List Event) (n k : Nat) :
    (s.moved es n).replyAt k = s.replyAt (n + k) := by
  simp only [State.replyAt, State.moved, List.getElem?_drop, Nat.add_assoc]

theorem State.moved_moved (s : State) (es es' : List Event) (n n' : Nat) :
    (s.moved es n).moved es' n' = s.moved (es ++ es') (n + n') := by
  simp [State.moved, List.drop_drop, Nat.add_assoc]

theorem State.received_eq_moved (s : State) (e : Event) :
    s.takeReply.emit e = s.moved [e] 1 := by
  simp [State.takeReply, State.emit, State.moved]

/-- Replies read from a place depend on the replies from there on only. -/
theorem State.repliesFrom_shift {s t : State} {k j : Nat}
    (h : ∀ m, t.replyAt (j + m) = s.replyAt (k + m)) (n : Nat) :
    t.repliesFrom j n = s.repliesFrom k n := by
  induction n generalizing k j with
  | zero => rfl
  | succ n ih =>
    have h0 := h 0
    have hs := ih (k := k + 1) (j := j + 1) fun m => by
      have := h (m + 1)
      simpa [Nat.add_assoc, Nat.add_comm, Nat.add_left_comm] using this
    simp only [Nat.add_zero] at h0
    simp only [State.repliesFrom, h0, hs]

theorem State.repliesFrom_moved (s : State) (es : List Event) (n k m : Nat) :
    (s.moved es n).repliesFrom k m = s.repliesFrom (n + k) m :=
  State.repliesFrom_shift (fun j => by simp [Nat.add_assoc]) m

theorem State.repliesFrom_length {s : State} {n k : Nat} {bs : List Byte}
    (h : s.repliesFrom k n = some bs) : bs.length = n := by
  induction n generalizing k bs with
  | zero => simp only [State.repliesFrom, Option.some.injEq] at h; simp [← h]
  | succ n ih =>
    simp only [State.repliesFrom] at h
    split at h
    · rename_i _ _ _ h2
      cases h
      simp [ih h2]
    · cases h

/-- Replies to `m + n` transfers are those to the first `m` and those to the next `n`. -/
theorem State.repliesFrom_append {s : State} {m n k : Nat} {bs : List Byte}
    (h : s.repliesFrom k (m + n) = some bs) :
    s.repliesFrom k m = some (bs.take m) ∧ s.repliesFrom (k + m) n = some (bs.drop m) := by
  induction m generalizing k bs with
  | zero => simpa [State.repliesFrom] using h
  | succ m ih =>
    rw [Nat.succ_add] at h
    simp only [State.repliesFrom] at h ⊢
    split at h
    · rename_i b bs' h1 h2
      cases h
      obtain ⟨ha, hb⟩ := ih h2
      rw [h1, ha, show k + (m + 1) = k + 1 + m by omega, hb]
      simp
    · cases h

/-! ### Byte transfers -/

theorem xfer_done {s : State} {b : Byte} (o : Byte) (h : s.replyAt 0 = some b) :
    xfer o s = .done b (s.moved [.byte o b] 1) := by
  simp [xfer, h, State.received_eq_moved]

theorem xfer_stuck {s : State} (o : Byte) (h : s.replyAt 0 = none) : xfer o s = .stuck s := by
  simp [xfer, h]

/-- Transfers that all return: one event each, the received bytes in order. -/
theorem xfers_done {os bs : List Byte} {s : State} (h : s.nextReplies os.length = some bs) :
    xfers os s = .done bs (s.moved (byteEvents os bs) os.length) := by
  induction os generalizing s bs with
  | nil =>
    simp only [State.nextReplies, List.length_nil, State.repliesFrom, Option.some.injEq] at h
    simp [xfers, ← h, byteEvents, State.moved]
  | cons o os ih =>
    simp only [State.nextReplies, List.length_cons, State.repliesFrom] at h
    split at h
    · rename_i b bs' h1 h2
      cases h
      have h3 : (s.moved [.byte o b] 1).nextReplies os.length = some bs' := by
        rw [State.nextReplies, State.repliesFrom_moved]
        exact h2
      simp only [xfers, xfer_done o h1, Flow.andThen_done, ih h3, Flow.giving_done,
        State.moved_moved, byteEvents, List.zipWith_cons_cons, List.length_cons]
      rw [Nat.add_comm 1]
      rfl
    · cases h

/-- Transfers of which the one after `bs` never returns: stuck there. -/
theorem xfers_stuck {os bs : List Byte} {s : State} {k : Nat} (hk : k < os.length)
    (h : s.nextReplies k = some bs) (hn : s.replyAt k = none) :
    xfers os s = .stuck (s.moved (byteEvents os bs) k) := by
  induction os generalizing s bs k with
  | nil => exact absurd hk (Nat.not_lt_zero k)
  | cons o os ih =>
    cases k with
    | zero =>
      simp only [State.nextReplies, State.repliesFrom, Option.some.injEq] at h
      simp [xfers, xfer_stuck o hn, ← h, byteEvents, State.moved]
    | succ k =>
      simp only [State.nextReplies, State.repliesFrom] at h
      split at h
      · rename_i b bs' h1 h2
        cases h
        have h3 : (s.moved [.byte o b] 1).nextReplies k = some bs' := by
          rw [State.nextReplies, State.repliesFrom_moved]
          exact h2
        have h4 : (s.moved [.byte o b] 1).replyAt k = none := by
          rw [State.replyAt_moved, Nat.add_comm]
          exact hn
        have hk' : k < os.length := by simpa using hk
        simp only [xfers, xfer_done o h1, Flow.andThen_done, ih hk' h3 h4, Flow.giving_stuck,
          State.moved_moved, byteEvents, List.zipWith_cons_cons]
        rw [Nat.add_comm 1]
        rfl
      · cases h

/-- The next `n` transfers all return, or one of them is the first that does not. -/
theorem State.replies_cases (s : State) (n : Nat) :
    (∃ bs, s.nextReplies n = some bs) ∨
      ∃ k bs, k < n ∧ s.nextReplies k = some bs ∧ s.replyAt k = none := by
  have aux : ∀ n j, (∃ bs, s.repliesFrom j n = some bs) ∨
      ∃ k bs, k < n ∧ s.repliesFrom j k = some bs ∧ s.replyAt (j + k) = none := by
    intro n
    induction n with
    | zero => exact fun j => .inl ⟨[], rfl⟩
    | succ n ih =>
      intro j
      cases hj : s.replyAt j with
      | none => exact .inr ⟨0, [], Nat.succ_pos n, rfl, hj⟩
      | some b =>
        rcases ih (j + 1) with ⟨bs, h⟩ | ⟨k, bs, hk, h, hn⟩
        · exact .inl ⟨b :: bs, by simp [State.repliesFrom, hj, h]⟩
        · refine .inr ⟨k + 1, b :: bs, Nat.succ_lt_succ hk, by simp [State.repliesFrom, hj, h], ?_⟩
          rw [← hn]
          congr 1
          omega
  simpa [State.nextReplies] using aux n 0

/-! ### Frames and the transfer primitive -/

theorem zeros_length (n : Nat) : (zeros n).length = n := List.length_replicate

theorem openFrame_replyAt (s : State) (k : Nat) : (openFrame s).replyAt k = s.replyAt k := rfl

theorem openFrame_nextReplies (s : State) (n : Nat) : (openFrame s).nextReplies n = s.nextReplies n :=
  State.repliesFrom_shift (fun m => openFrame_replyAt s (0 + m)) n

/-- Bytes beyond those received have no event. -/
theorem byteEvents_append_left {a b c : List Byte} (h : c.length ≤ a.length) :
    byteEvents (a ++ b) c = byteEvents a c := by
  induction a generalizing c with
  | nil =>
    have : c = [] := by simpa using h
    simp [this, byteEvents]
  | cons x a ih =>
    cases c with
    | nil => rfl
    | cons y c =>
      simpa [byteEvents] using ih (by simpa using h)

theorem byteEvents_append {a b c d : List Byte} (h : a.length = c.length) :
    byteEvents (a ++ b) (c ++ d) = byteEvents a c ++ byteEvents b d :=
  List.zipWith_append h

/-- What one frame leaves of the state: these events, `n` bytes received, High, no frame open. -/
def State.afterFrame (s : State) (es : List Event) (n : Nat) : State :=
  { s.moved es n with cs := .high, inTxn := false }

/-- A frame whose transfers all return: exactly the events of 40_framing.md R67, and the bytes of the read phase. -/
theorem frame_done {w bs : List Byte} {n : Nat} {s : State}
    (h : s.nextReplies (w.length + n) = some bs) :
    frame w n s = .done (bs.drop w.length)
      (s.afterFrame (frameEvents s.csLine s.settings (w ++ zeros n) bs) (w.length + n)) := by
  obtain ⟨h1, h2⟩ := State.repliesFrom_append h
  have e1 : (openFrame s).nextReplies w.length = some (bs.take w.length) :=
    (openFrame_nextReplies s _).trans h1
  have e2 : ((openFrame s).moved (byteEvents w (bs.take w.length)) w.length).nextReplies
      (zeros n).length = some (bs.drop w.length) := by
    rw [State.nextReplies, State.repliesFrom_moved, zeros_length, ← h2, Nat.add_comm 0]
    exact State.repliesFrom_shift (fun m => by simp [openFrame, busBeginTransaction, csDrive]) _
  simp only [frame, xfers_done e1, Flow.andThen_done, xfers_done e2, State.moved_moved,
    zeros_length]
  congr 1
  have hl : w.length = (bs.take w.length).length := by
    have := State.repliesFrom_length h
    simp; omega
  have hb : byteEvents (w ++ zeros n) bs
      = byteEvents w (bs.take w.length) ++ byteEvents (zeros n) (bs.drop w.length) := by
    rw [← byteEvents_append hl, List.take_append_drop]
  simp [closeFrame, openFrame, busBeginTransaction, busEndTransaction, csDrive, State.emit,
    State.setCs, State.setInTxn, State.moved, State.afterFrame, frameEvents, hb, Level.drive]

/-- A frame of which a transfer never returns: the frame stays open (40_framing.md R72). -/
theorem frame_stuck {w bs : List Byte} {n k : Nat} {s : State} (hk : k < w.length + n)
    (h : s.nextReplies k = some bs) (hn : s.replyAt k = none) :
    frame w n s = .stuck
      (s.stalled (openFrameEvents s.csLine s.settings (w ++ zeros n) bs) k) := by
  have hlen : bs.length = k := State.repliesFrom_length h
  have shift : ∀ j, (openFrame s).replyAt j = s.replyAt j := fun j => rfl
  by_cases hw : k < w.length
  · have e1 : (openFrame s).nextReplies k = some bs := (openFrame_nextReplies s _).trans h
    have hz : byteEvents (w ++ zeros n) bs = byteEvents w bs :=
      byteEvents_append_left (by omega)
    simp only [frame, xfers_stuck hw e1 (by rw [shift]; exact hn), Flow.andThen_stuck]
    congr 1
    simp [openFrame, busBeginTransaction, csDrive, State.emit, State.setCs, State.setInTxn,
      State.moved, State.stalled, openFrameEvents, hz, Level.drive]
  · have hk' : k = w.length + (k - w.length) := by omega
    rw [State.nextReplies, hk'] at h
    obtain ⟨h1, h2⟩ := State.repliesFrom_append h
    have e1 : (openFrame s).nextReplies w.length = some (bs.take w.length) :=
      (openFrame_nextReplies s _).trans h1
    have e2 : ((openFrame s).moved (byteEvents w (bs.take w.length)) w.length).nextReplies
        (k - w.length) = some (bs.drop w.length) := by
      rw [State.nextReplies, State.repliesFrom_moved, ← h2, Nat.add_comm 0]
      exact State.repliesFrom_shift (fun m => by simp [openFrame_replyAt]) _
    have e3 : ((openFrame s).moved (byteEvents w (bs.take w.length)) w.length).replyAt
        (k - w.length) = none := by
      rw [State.replyAt_moved, openFrame_replyAt, ← hk']
      exact hn
    have hz : k - w.length < (zeros n).length := by rw [zeros_length]; omega
    simp only [frame, xfers_done e1, Flow.andThen_done, xfers_stuck hz e2 e3, Flow.andThen_stuck,
      State.moved_moved, ← hk']
    congr 1
    have hb : byteEvents (w ++ zeros n) bs
        = byteEvents w (bs.take w.length) ++ byteEvents (zeros n) (bs.drop w.length) := by
      rw [← byteEvents_append (by simp; omega), List.take_append_drop]
    simp [openFrame, busBeginTransaction, csDrive, State.emit, State.setCs, State.setInTxn,
      State.moved, State.stalled, openFrameEvents, hb, Level.drive]

/-- A frame completes, or is stuck at the first transfer that never returns; there is no third case. -/
theorem frame_cases (w : List Byte) (n : Nat) (s : State) :
    (∃ bs, s.nextReplies (w.length + n) = some bs ∧
      frame w n s = .done (bs.drop w.length)
        (s.afterFrame (frameEvents s.csLine s.settings (w ++ zeros n) bs) (w.length + n))) ∨
    (∃ k bs, k < w.length + n ∧ s.nextReplies k = some bs ∧ s.replyAt k = none ∧
      frame w n s = .stuck
        (s.stalled (openFrameEvents s.csLine s.settings (w ++ zeros n) bs) k)) := by
  rcases s.replies_cases (w.length + n) with ⟨bs, h⟩ | ⟨k, bs, hk, h, hn⟩
  · exact .inl ⟨bs, h, frame_done h⟩
  · exact .inr ⟨k, bs, hk, h, hn, frame_stuck hk h hn⟩

/-- Txn with both buffers present is one frame, and succeeds where it completes (40_framing.md R66). -/
theorem txn_present (w : List Byte) (n : Nat) (s : State) :
    txn (some w) (some n) s = (frame w n s).giving fun r => (true, r) := rfl

/-- Txn with a buffer absent fails, whatever the bus would do: no event, no change of the block (R99, R105). -/
theorem txn_absent {wbuf : Option (List Byte)} {rbuf : Option Nat} (h : wbuf = none ∨ rbuf = none)
    (s : State) :
    txn wbuf rbuf s = .done (false, staleBuffer (rbuf.getD 0) s) s.takeStale := by
  rcases h with rfl | rfl
  · cases rbuf <;> rfl
  · cases wbuf <;> rfl

@[simp] theorem staleBuffer_length (n : Nat) (s : State) : (staleBuffer n s).length = n := by
  simp [staleBuffer]

/-! ### The shorthands -/

/-- `Cmd(c)` where its transfer returns. -/
theorem cmd_done {s : State} {bs : List Byte} (c : Byte) (h : s.nextReplies 1 = some bs) :
    cmd c s = .done true (s.afterFrame (frameEvents s.csLine s.settings [c] bs) 1) := by
  simp only [cmd, txn_present, frame_done (w := [c]) (n := 0) h, Flow.giving_done]
  rfl

/-- `MemWrite(sel, n, bytes)` where its transfers return. -/
theorem memWrite_done {s : State} {n : Nat} {bytes bs : List Byte} (r : Reg)
    (h : s.nextReplies (1 + (bytes.take n).length) = some bs) :
    memWrite r n bytes s = .done true (s.afterFrame
      (frameEvents s.csLine s.settings (commandByte .write r :: bytes.take n) bs)
      (1 + (bytes.take n).length)) := by
  have h' : s.nextReplies ((commandByte .write r :: bytes.take n).length + 0) = some bs := by
    rw [← h, List.length_cons]
    congr 1
    omega
  simp only [memWrite, txn_present, frame_done h', Flow.giving_done, zeros, List.replicate_zero,
    List.append_nil, List.length_cons]
  congr 2
  omega

/-- `MemRead(sel, n)` where its transfers return: the byte received with the command is dropped. -/
theorem memRead_done {s : State} {n : Nat} {x : Byte} {rs : List Byte} (r : Reg)
    (h : s.nextReplies (1 + n) = some (x :: rs)) :
    memRead r n s = .done rs (s.afterFrame
      (frameEvents s.csLine s.settings (commandByte .read r :: zeros n) (x :: rs)) (1 + n)) := by
  simp only [memRead, txn_present, frame_done (w := [commandByte .read r]) h, Flow.giving_done]
  rfl

/-! ### One frame after another -/

@[simp] theorem State.afterFrame_csLine (s : State) (es : List Event) (n : Nat) :
    (s.afterFrame es n).csLine = s.csLine := rfl
@[simp] theorem State.afterFrame_settings (s : State) (es : List Event) (n : Nat) :
    (s.afterFrame es n).settings = s.settings := rfl
@[simp] theorem State.afterFrame_width (s : State) (es : List Event) (n : Nat) :
    (s.afterFrame es n).width = s.width := rfl
@[simp] theorem State.afterFrame_phase (s : State) (es : List Event) (n : Nat) :
    (s.afterFrame es n).phase = s.phase := rfl

theorem State.afterFrame_afterFrame (s : State) (es es' : List Event) (n n' : Nat) :
    (s.afterFrame es n).afterFrame es' n' = s.afterFrame (es ++ es') (n + n') := by
  simp [State.afterFrame, State.moved, List.drop_drop, Nat.add_assoc]

/-- The replies after a frame are those beyond it. -/
theorem State.nextReplies_afterFrame (s : State) (es : List Event) (n m : Nat) :
    (s.afterFrame es n).nextReplies m = s.repliesFrom n m :=
  State.repliesFrom_shift (fun j => by
    have h : (s.afterFrame es n).replyAt (0 + j) = (s.moved es n).replyAt (0 + j) := rfl
    rw [h, State.replyAt_moved, Nat.zero_add]) m

theorem State.replyAt_afterFrame (s : State) (es : List Event) (n k : Nat) :
    (s.afterFrame es n).replyAt k = s.replyAt (n + k) := by
  have h : (s.afterFrame es n).replyAt k = (s.moved es n).replyAt k := rfl
  rw [h, State.replyAt_moved]

@[simp] theorem State.nextReplies_setWidth (s : State) (w : Width) (n : Nat) :
    (s.setWidth w).nextReplies n = s.nextReplies n :=
  State.repliesFrom_shift (fun m => State.replyAt_setWidth s w (0 + m)) n

theorem State.afterFrame_setWidth (s : State) (w : Width) (es : List Event) (n : Nat) :
    (s.setWidth w).afterFrame es n = (s.afterFrame es n).setWidth w := rfl

/-- The state that a completed operation leaves, from that of its last frame. -/
theorem State.finish_afterFrame (s : State) (es : List Event) (n : Nat) (r : Result) :
    (Flow.done r (s.afterFrame es n)).finish = s.completed es n r := rfl

end Sys2Proof.Machine
end

