-- ==== Sys2Proof/Laws/Exec.lean ====
section
/-! SUPPORT. What exec is for each operation, once: its phase and its body; how a property of a body's outcome is put together from its parts; what a step can be. -/

namespace Sys2Proof.Machine

/-- The phase that admits an operation (46_lifecycle.md R97). -/
def phaseOf (i : Instr) : Phase := if i = .beginOp then .constructed else .active

/-- What an admitted operation does. -/
def bodyOf : Instr → State → Flow Result
  | .transfer wbuf _ rbuf _, s => (transfer wbuf rbuf s).giving fun (ok, r) => .transfer ok r
  | .writeMode0 d, s => (writeMode0 d s).giving .ok
  | .writeMode1 d, s => (writeMode1 d s).giving .ok
  | .writeDataRegister b0 b1 b2 b3, s => (writeDataRegister b0 b1 b2 b3 s).giving .ok
  | .loadCounterFromData, s => (loadCounterFromData s).giving .ok
  | .loadOutputFromCounter, s => (loadOutputFromCounter s).giving .ok
  | .readMode0, s => (readMode0 s).giving .u8
  | .readMode1, s => (readMode1 s).giving .u8
  | .readStatus, s => (readStatus s).giving .u8
  | .readOutputRegister, s => (readOutputRegister s).giving .i32
  | .readCounter, s => (readCounter s).giving .u32
  | .readDataRegister, s => (readDataRegister s).giving .i32
  | .clearMode0, s => (clearMode0 s).giving .ok
  | .clearMode1, s => (clearMode1 s).giving .ok
  | .clearCounter, s => (clearCounter s).giving .ok
  | .clearStatus, s => (clearStatus s).giving .ok
  | .configure m0 m1, s => (configure m0 m1 s).giving fun _ => .noValue
  | .enable, s => (enable s).giving fun _ => .noValue
  | .disable, s => (disable s).giving fun _ => .noValue
  | .defaultConfiguration, s => (defaultConfiguration s).giving fun _ => .noValue
  | .beginOp, s => (beginHandle s).giving fun _ => .noValue
  | .endOp, s => (endHandle s).giving fun _ => .noValue

/-- Every meaning is: refuse what is no operation, then admit by phase, then run the body. -/
theorem exec_eq (i : Instr) (s : State) :
    exec i s = if i.wellFormed then admittedIn (phaseOf i) (bodyOf i) s
      else .refused .lengthMismatch := by
  cases i <;> rfl

/-- A next state of exec: of a well-formed operation in its phase, either the same state of a stuck handle or the state its
body leaves. -/
theorem exec_next {i : Instr} {s t : State} (h : exec i s = .next t) :
    i.wellFormed = true ∧ s.phase = phaseOf i ∧
      ((s.inTxn = true ∧ t = s) ∨ (s.inTxn = false ∧ t = (bodyOf i s).finish)) := by
  rw [exec_eq] at h
  split at h
  · rename_i hw
    obtain ⟨hp, h⟩ := admittedIn_next h
    exact ⟨hw, hp, h⟩
  · cases h

/-- A well-formed operation in its phase on a handle that is not stuck answers the state its body leaves. -/
theorem exec_runs {i : Instr} {s : State} (hw : i.wellFormed = true) (hp : s.phase = phaseOf i)
    (hi : s.inTxn = false) : exec i s = .next (bodyOf i s).finish := by
  simp [exec_eq, hw, admittedIn, hp, hi]

/-- A step is that of the operation presented next, or changes nothing. -/
theorem step_cases {s t : State} (h : step s = .next t) :
    (t = s ∧ (s.inTxn = true ∨ s.pending = [])) ∨
    (s.inTxn = false ∧ ∃ i rest, s.pending = i :: rest ∧ exec i { s with pending := rest } = .next t) := by
  cases hi : s.inTxn
  · cases hp : s.pending with
    | nil =>
      simp only [step, takeOperation, hi, hp] at h
      exact .inl ⟨by injection h with h; exact h.symm, .inr rfl⟩
    | cons i rest =>
      simp only [step, takeOperation, hi, hp] at h
      exact .inr ⟨rfl, i, rest, rfl, h⟩
  · simp only [step, takeOperation, hi] at h
    exact .inl ⟨by injection h with h; exact h.symm, .inl rfl⟩

/-! ### Properties of an outcome -/

section
variable {α β : Type}

/-- `D` holds of the value and state of a completed piece, `K` of the state of a stuck one. -/
def Flow.Ends (m : Flow α) (D : α → State → Prop) (K : State → Prop) : Prop :=
  match m with
  | .done a s => D a s
  | .stuck s => K s

@[simp] theorem Flow.ends_done (a : α) (s : State) (D : α → State → Prop) (K : State → Prop) :
    (Flow.done a s).Ends D K ↔ D a s := Iff.rfl
@[simp] theorem Flow.ends_stuck (s : State) (D : α → State → Prop) (K : State → Prop) :
    (Flow.stuck s).Ends D K ↔ K s := Iff.rfl

theorem Flow.ends_andThen {m : Flow α} {k : α → State → Flow β} {D : α → State → Prop}
    {D' : β → State → Prop} {K : State → Prop} (h : m.Ends D K)
    (hk : ∀ a s, D a s → (k a s).Ends D' K) : (m.andThen k).Ends D' K := by
  cases m with
  | done a s => exact hk a s h
  | stuck s => exact h

theorem Flow.ends_giving {m : Flow α} {f : α → β} {D : β → State → Prop} {K : State → Prop}
    (h : m.Ends (fun a => D (f a)) K) : (m.giving f).Ends D K := by
  cases m with
  | done a s => exact h
  | stuck s => exact h

theorem Flow.ends_mono {m : Flow α} {D D' : α → State → Prop} {K K' : State → Prop}
    (h : m.Ends D K) (hD : ∀ a s, D a s → D' a s) (hK : ∀ s, K s → K' s) : m.Ends D' K' := by
  cases m with
  | done a s => exact hD a s h
  | stuck s => exact hK s h

end

/-- The outcome of a frame, from its two cases. -/
theorem frame_ends {w : List Byte} {n : Nat} {s : State} {D : List Byte → State → Prop}
    {K : State → Prop}
    (hD : ∀ bs, s.nextReplies (w.length + n) = some bs →
      D (bs.drop w.length)
        (s.afterFrame (frameEvents s.csLine s.settings (w ++ zeros n) bs) (w.length + n)))
    (hK : ∀ k bs, k < w.length + n → s.nextReplies k = some bs → s.replyAt k = none →
      K (s.stalled (openFrameEvents s.csLine s.settings (w ++ zeros n) bs) k)) :
    (frame w n s).Ends D K := by
  rcases frame_cases w n s with ⟨bs, h, e⟩ | ⟨k, bs, hk, h, hn, e⟩
  · rw [e]; exact hD bs h
  · rw [e]; exact hK k bs hk h hn

/-- The outcome of `Cmd(c)`, from its two cases. -/
theorem cmd_ends {c : Byte} {s : State} {D : Bool → State → Prop} {K : State → Prop}
    (hD : ∀ bs, s.nextReplies 1 = some bs →
      D true (s.afterFrame (frameEvents s.csLine s.settings [c] bs) 1))
    (hK : ∀ k bs, k < 1 → s.nextReplies k = some bs → s.replyAt k = none →
      K (s.stalled (openFrameEvents s.csLine s.settings [c] bs) k)) :
    (cmd c s).Ends D K :=
  Flow.ends_giving (Flow.ends_giving (frame_ends (w := [c]) (n := 0) hD hK))

/-- The outcome of `MemWrite(sel, n, bytes)`, from its two cases. -/
theorem memWrite_ends {r : Reg} {n : Nat} {bytes : List Byte} {s : State}
    {D : Bool → State → Prop} {K : State → Prop}
    (hD : ∀ bs, s.nextReplies ((bytes.take n).length + 1) = some bs →
      D true (s.afterFrame
        (frameEvents s.csLine s.settings (commandByte .write r :: bytes.take n) bs)
        ((bytes.take n).length + 1)))
    (hK : ∀ k bs, k < (bytes.take n).length + 1 → s.nextReplies k = some bs → s.replyAt k = none →
      K (s.stalled
        (openFrameEvents s.csLine s.settings (commandByte .write r :: bytes.take n) bs) k)) :
    (memWrite r n bytes s).Ends D K := by
  refine Flow.ends_giving (Flow.ends_giving (frame_ends ?_ ?_))
  · intro bs h
    have := hD bs h
    simpa [zeros] using this
  · intro k bs hk h hn
    have := hK k bs (by simpa using hk) h hn
    simpa [zeros] using this

/-- The outcome of `MemRead(sel, n)`, from its two cases. -/
theorem memRead_ends {r : Reg} {n : Nat} {s : State} {D : List Byte → State → Prop}
    {K : State → Prop}
    (hD : ∀ x rs, s.nextReplies (1 + n) = some (x :: rs) → rs.length = n →
      D rs (s.afterFrame
        (frameEvents s.csLine s.settings (commandByte .read r :: zeros n) (x :: rs)) (1 + n)))
    (hK : ∀ k bs, k < 1 + n → s.nextReplies k = some bs → s.replyAt k = none →
      K (s.stalled
        (openFrameEvents s.csLine s.settings (commandByte .read r :: zeros n) bs) k)) :
    (memRead r n s).Ends D K := by
  refine Flow.ends_giving (Flow.ends_giving (frame_ends (w := [commandByte .read r]) ?_ hK))
  intro bs h
  have hl := State.repliesFrom_length h
  cases bs with
  | nil => simp only [List.length_nil, List.length_cons] at hl; omega
  | cons x rs => exact hD x rs h (by simp only [List.length_nil, List.length_cons] at hl; omega)

end Sys2Proof.Machine
end

