-- ==== Sys2Proof/Laws/Frames.lean ====
section
/-! SUPPORT. What the events of a frame are to the readers of an event list: the frames in it, and the protocol it follows. -/

namespace Sys2Proof.Machine

/-! ### The frames of an event list -/

theorem framesFrom_byteEvents (a : List Byte) : ∀ (b : List Byte) acc rest,
    framesFrom (some acc) (byteEvents a b ++ rest) = framesFrom (some (acc ++ a.zip b)) rest := by
  induction a with
  | nil => intro b acc rest; simp [byteEvents]
  | cons x a ih =>
    intro b acc rest
    cases b with
    | nil => simp [byteEvents]
    | cons y b =>
      have h := ih b (acc ++ [(x, y)]) rest
      simp only [byteEvents] at h
      simp [byteEvents, framesFrom, Event.deselects, Event.bytes, h]

/-- A complete frame is read as one frame: what was sent, each with what was received. -/
theorem framesOf_frameEvents (line : LineId) (settings : Settings) (sent received : List Byte)
    (rest : List Event) :
    framesOf (frameEvents line settings sent received ++ rest)
      = sent.zip received :: framesOf rest := by
  simp only [framesOf, frameEvents, List.append_assoc, List.cons_append, List.nil_append,
    framesFrom, Event.selects, Event.deselects, Event.bytes, if_true, Bool.false_eq_true, if_false,
    List.append_nil, framesFrom_byteEvents]

/-- A frame that a stall left open is no complete frame. -/
theorem framesOf_openFrameEvents (line : LineId) (settings : Settings) (sent received : List Byte) :
    framesOf (openFrameEvents line settings sent received) = [] := by
  have h := framesFrom_byteEvents sent received [] []
  simp only [List.append_nil, List.nil_append] at h
  simp only [framesOf, openFrameEvents, List.cons_append, List.nil_append, framesFrom,
    Event.selects, Event.deselects, Event.bytes, if_true, Bool.false_eq_true, if_false,
    List.append_nil, h]

/-- What was sent in a complete frame. -/
theorem sentFrames_frameEvents (line : LineId) (settings : Settings) {sent received : List Byte}
    (h : sent.length = received.length) (rest : List Event) :
    sentFrames (frameEvents line settings sent received ++ rest) = sent :: sentFrames rest := by
  simp [sentFrames, framesOf_frameEvents, List.map_fst_zip, h]

/-! ### The protocol -/

theorem wire_run_append (line : LineId) (settings : Settings) (p : Wire) (a b : List Event) :
    Wire.run line settings p (a ++ b)
      = (Wire.run line settings p a).bind fun q => Wire.run line settings q b := by
  induction a generalizing p with
  | nil => rfl
  | cons e es ih =>
    simp only [List.cons_append, Wire.run]
    cases p.next line settings e with
    | none => rfl
    | some q => exact ih q

theorem wire_run_byteEvents (line : LineId) (settings : Settings) (a : List Byte) :
    ∀ b, Wire.run line settings .busy (byteEvents a b) = some .busy := by
  induction a with
  | nil => intro b; simp [byteEvents, Wire.run]
  | cons x a ih =>
    intro b
    cases b with
    | nil => simp [byteEvents, Wire.run]
    | cons y b =>
      have h := ih b
      simp only [byteEvents] at h
      simpa [byteEvents, Wire.run, Wire.next, Event.bytes] using h

/-- A complete frame leads from idle to idle. -/
theorem wire_run_frameEvents (line : LineId) (settings : Settings) (sent received : List Byte) :
    Wire.run line settings .idle (frameEvents line settings sent received) = some .idle := by
  simp only [frameEvents, wire_run_append]
  simp [Wire.run, Wire.next, wire_run_byteEvents, Event.bytes]

/-- A frame left open leads from idle into a transaction. -/
theorem wire_run_openFrameEvents (line : LineId) (settings : Settings)
    (sent received : List Byte) :
    Wire.run line settings .idle (openFrameEvents line settings sent received) = some .busy := by
  simp only [openFrameEvents, wire_run_append]
  simp [Wire.run, Wire.next, wire_run_byteEvents]

end Sys2Proof.Machine
end

