-- ==== Sys2Proof/Laws/PerInstr.lean ====
section
/-! SUPPORT. Statements about every operation as syntax: the frames of the block's own operations start with one of the thirteen formed command bytes (30_encoding.md R59, R60). -/

namespace Sys2Proof.Laws.OwnFrames

open Sys2Proof

/-- Every frame that the operation sends starts with a formed command byte; transfer, which sends the caller's bytes
(30_encoding.md R62), is left out by the first hypothesis. -/
def Statement (i : Instr) : Prop :=
  (∀ wbuf wLen rbuf rLen, i ≠ .transfer wbuf wLen rbuf rLen) →
    ∀ (w : Width) (v : Byte), ∀ f ∈ encode w v i, ∃ c rest, f = c :: rest ∧ c ∈ formedCommands

/-- A list of frames whose first bytes are all formed command bytes. -/
theorem of_heads {fs : List (List Byte)}
    (h : fs.all (fun f => match f with | [] => false | c :: _ => formedCommands.contains c) = true) :
    ∀ f ∈ fs, ∃ c rest, f = c :: rest ∧ c ∈ formedCommands := by
  intro f hf
  have := List.all_eq_true.mp h f hf
  cases f with
  | nil => cases this
  | cons c rest => exact ⟨c, rest, rfl, by simpa using this⟩

theorem transfer (wbuf : Option (List Byte)) (wLen : Nat) (rbuf : Option (List Byte)) (rLen : Nat) :
    Statement (.transfer wbuf wLen rbuf rLen) := fun h => absurd rfl (h wbuf wLen rbuf rLen)

theorem writeMode0 (settings : Byte) : Statement (.writeMode0 settings) := fun _ _ _ => of_heads rfl

theorem writeMode1 (settings : Byte) : Statement (.writeMode1 settings) := fun _ _ _ => of_heads rfl

theorem writeDataRegister (b0 b1 b2 b3 : Byte) : Statement (.writeDataRegister b0 b1 b2 b3) :=
  fun _ _ _ => of_heads rfl

theorem loadCounterFromData : Statement .loadCounterFromData := fun _ _ _ => of_heads rfl

theorem loadOutputFromCounter : Statement .loadOutputFromCounter := fun _ _ _ => of_heads rfl

theorem readMode0 : Statement .readMode0 := fun _ _ _ => of_heads rfl

theorem readMode1 : Statement .readMode1 := fun _ _ _ => of_heads rfl

theorem readStatus : Statement .readStatus := fun _ _ _ => of_heads rfl

theorem readOutputRegister : Statement .readOutputRegister := fun _ _ _ => of_heads rfl

theorem readCounter : Statement .readCounter := fun _ _ _ => of_heads rfl

theorem readDataRegister : Statement .readDataRegister := fun _ _ _ => of_heads rfl

theorem clearMode0 : Statement .clearMode0 := fun _ _ _ => of_heads rfl

theorem clearMode1 : Statement .clearMode1 := fun _ _ _ => of_heads rfl

theorem clearCounter : Statement .clearCounter := fun _ _ _ => of_heads rfl

theorem clearStatus : Statement .clearStatus := fun _ _ _ => of_heads rfl

theorem configure (mdr0Settings mdr1Settings : Byte) :
    Statement (.configure mdr0Settings mdr1Settings) := fun _ _ _ => of_heads rfl

theorem enable : Statement .enable := fun _ _ _ => of_heads rfl

theorem disable : Statement .disable := fun _ _ _ => of_heads rfl

theorem defaultConfiguration : Statement .defaultConfiguration := fun _ _ _ => of_heads rfl

theorem beginOp : Statement .beginOp := fun _ _ _ => of_heads rfl

theorem endOp : Statement .endOp := fun _ _ _ => of_heads rfl

end Sys2Proof.Laws.OwnFrames
end

