-- ==== Sys2Proof/Laws/RefDev.lean ====
section
/-! SUPPORT. What REFDEV predicts of a frame, position by position, and what the premise on received bytes says of one frame. -/

namespace Sys2Proof.Machine

theorem registerBytes_length (v : Word) (n : Nat) : (registerBytes v n).length = n := by
  simp [registerBytes]

/-- There is one prediction for each byte sent. -/
theorem drives_length (d : RefDev) (sent : List Byte) : (d.drives sent).length = sent.length := by
  unfold RefDev.drives
  repeat' split
  all_goals simp_all [registerBytes_length, zeros]

theorem answer_length (d : RefDev) (written : Nat) (sent : List Byte) :
    (d.answer written sent).length = sent.length := by
  simp [RefDev.answer, drives_length]

/-- A position of the write phase is unconstrained, one of the read phase is as the device drives it. -/
theorem answer_getElem? (d : RefDev) (written : Nat) (sent : List Byte) (k : Nat) :
    (d.answer written sent)[k]? =
      (d.drives sent)[k]?.map fun p => if k < written then none else p := by
  simp [RefDev.answer]

/-- Bytes agree with a prediction exactly where they agree position by position. -/
theorem agrees_iff (ps : List (Option Byte)) (bs : List Byte) :
    agrees ps bs = true ↔
      ps.length = bs.length ∧ ∀ (k : Nat) (p : Byte), ps[k]? = some (some p) → bs[k]? = some p := by
  induction ps generalizing bs with
  | nil => cases bs <;> simp [agrees]
  | cons q ps ih =>
    cases bs with
    | nil => cases q <;> simp [agrees]
    | cons b bs =>
      cases q with
      | none =>
        simp only [agrees, ih, List.length_cons, Nat.add_right_cancel_iff]
        refine and_congr_right fun _ => ⟨fun h k p hk => ?_, fun h k p hk => h (k + 1) p (by simpa using hk)⟩
        cases k with
        | zero => simp at hk
        | succ k => simpa using h k p (by simpa using hk)
      | some q =>
        simp only [agrees, Bool.and_eq_true, beq_iff_eq, ih, List.length_cons, Nat.add_right_cancel_iff]
        constructor
        · rintro ⟨rfl, hl, h⟩
          refine ⟨hl, fun k p hk => ?_⟩
          cases k with
          | zero => simpa using hk
          | succ k => simpa using h k p (by simpa using hk)
        · rintro ⟨hl, h⟩
          refine ⟨?_, hl, fun k p hk => by simpa using h (k + 1) p (by simpa using hk)⟩
          simpa [eq_comm] using h 0 q rfl

/-- The premise on the next frame and those after it. -/
theorem deviceAgrees_cons (d : RefDev) (written : Nat) (f : List (Byte × Byte))
    (fs : List (Nat × List (Byte × Byte))) :
    deviceAgrees (some d) ((written, f) :: fs) = true ↔
      agrees (d.answer written (f.map Prod.fst)) (f.map Prod.snd) = true ∧
        deviceAgrees (d.onFrame (f.map Prod.fst)) fs = true := by
  simp [deviceAgrees]

end Sys2Proof.Machine
end

