-- ==== Sys2Proof/Tests/Slice0.lean ====
section
/-! SUPPORT. Tests: ill-formed operands, words written out from 30_encoding.md, the vectors of 95_test_vectors.md one operation at a time, and for each statement with hypotheses a state and operands that meet them. Expected values are the spec's, not the model's. -/

namespace Sys2Proof.Tests

open Sys2Proof Sys2Proof.Machine

/-! ### Helpers -/

/-- A handle on line 7 right after begin, at this width, to which the bus answers these bytes. -/
def handle (w : Width) (bytes : List Byte) : State :=
  { State.construct (some 7) 0 with
    phase := .active, bus := .claimed, cs := .high, width := w, replies := bytes.map some }

/-- The same, with a first transfer that never returns after those bytes. -/
def stalling (w : Width) (bytes : List Byte) : State :=
  { handle w bytes with replies := bytes.map some ++ [none] }

/-- A handle stuck in a frame. -/
def stuckHandle : State := { handle 4 [] with cs := .low, inTxn := true }

/-- The state an operation leaves, where it answers one. -/
def after (i : Instr) (s : State) : Option State :=
  match exec i s with
  | .next t => some t
  | .fault f => nomatch f
  | .refused _ => none

/-- The frames and the results of an operation on a fresh handle of the helper's kind. -/
def observed (i : Instr) (s : State) : Option (List (List Byte) × List Result) :=
  (after i s).map fun t => (sentFrames t.events, t.results)

/-! ### Well-formedness: an ill-formed term for each check, refused -/

theorem test_illformed_wbuf : (Instr.transfer (some [0x70]) 2 (some [0]) 1).wellFormed = false := by decide
theorem test_illformed_rbuf : (Instr.transfer (some [0x70]) 1 (some []) 1).wellFormed = false := by decide
theorem test_wellformed_absent : (Instr.transfer none 2 (some []) 0).wellFormed = true := by decide
theorem test_illformed_refused :
    exec (.transfer (some [0x70]) 2 (some [0]) 1) (handle 4 []) = .refused .lengthMismatch := rfl

/-! ### Decoding: words written out bit by bit from 30_encoding.md R51 to R56 -/

theorem test_decode_writeMode0 : decodeFrame 4 [0b10001000, 0b10100101] = .ok (.writeMode0 0xA5) := by decide
theorem test_decode_writeMode1 : decodeFrame 4 [0b10010000, 0b00000010] = .ok (.writeMode1 0x02) := by decide
theorem test_decode_writeDataRegister :
    decodeFrame 4 [0b10011000, 0x12, 0x34, 0x56, 0x78] = .ok (.writeDataRegister 0x12 0x34 0x56 0x78) := by decide
theorem test_decode_loadCounterFromData : decodeFrame 4 [0b11100000] = .ok .loadCounterFromData := by decide
theorem test_decode_loadOutputFromCounter : decodeFrame 4 [0b11101000] = .ok .loadOutputFromCounter := by decide
theorem test_decode_readMode0 : decodeFrame 4 [0b01001000, 0] = .ok .readMode0 := by decide
theorem test_decode_readMode1 : decodeFrame 4 [0b01010000, 0] = .ok .readMode1 := by decide
theorem test_decode_readStatus : decodeFrame 4 [0b01110000, 0] = .ok .readStatus := by decide
theorem test_decode_readOutputRegister :
    decodeFrame 4 [0b01101000, 0, 0, 0, 0] = .ok .readOutputRegister := by decide
theorem test_decode_readCounter : decodeFrame 3 [0b01100000, 0, 0, 0] = .ok .readCounter := by decide
theorem test_decode_readDataRegister : decodeFrame 2 [0b01011000, 0, 0] = .ok .readDataRegister := by decide
theorem test_decode_clearMode0 : decodeFrame 4 [0b10001000, 0b00001000] = .ok .clearMode0 := by decide
theorem test_decode_clearMode1 : decodeFrame 4 [0b10010000, 0b00010000] = .ok .clearMode1 := by decide
theorem test_decode_clearCounter : decodeFrame 4 [0b00100000] = .ok .clearCounter := by decide
theorem test_decode_clearStatus : decodeFrame 4 [0b00110000] = .ok .clearStatus := by decide
theorem test_decode_configure : decodeFrames 4 [[0x88, 0x03], [0x90, 0x02]] = .ok (.configure 0x03 0x02) := by decide
theorem test_decode_enable : decodeFrames 4 [[0x50, 0x00], [0x90, 0x02]] = .ok .enable := by decide
theorem test_decode_disable : decodeFrames 4 [[0x50, 0x00], [0x90, 0x06]] = .ok .disable := by decide
theorem test_decode_defaultConfiguration :
    decodeFrames 0 [[0x88, 0x03], [0x90, 0x00], [0x98, 0, 0, 0, 0], [0x20], [0xE0], [0x50, 0x00], [0x90, 0x00]]
      = .ok .defaultConfiguration := by decide
theorem test_decode_end : decodeFrames 4 [[0x20], [0x50, 0x00], [0x90, 0x05]] = .ok .endOp := by decide
theorem test_decode_neverFormed : decodeFrame 4 [0xC8] = .error (.neverFormed .load .mdr0) := by decide
theorem test_decode_selector7 : decodeFrame 4 [0x78] = .error (.noSuchRegister 0x78) := by decide
theorem test_decode_lowBits : decodeFrame 4 [0x21] = .error (.lowBitsSet 0x21) := by decide
theorem test_decode_dummy : decodeFrame 4 [0x48, 0x01] = .error (.dummyNotZero .read .mdr0) := by decide
theorem test_decode_length : decodeFrame 2 [0x60, 0, 0, 0] = .error (.wrongLength .read .cntr) := by decide
theorem test_tableWord_write : decodeTableWord 8 0x98 = some (.writeDataRegister 0 0 0 0) := by decide
theorem test_tableWord_quirk : decodeTableWord 16 0x0888 = some .clearMode0 := by decide
theorem test_tableWord_refused : decodeTableWord 8 0xC8 = none := by decide

/-! ### One operation at a time: 95_test_vectors.md -/

/-- 40_framing.md R66, example: the exact events. -/
theorem test_transfer_example :
    (after (.transfer (some [0x70]) 1 (some [0]) 1) (handle 0 [0x11, 0x5A])).map (fun t => (t.events, t.results)) =
      some ([.cs 7 .low, .txnBegin ⟨100000, .msbFirst, .mode0⟩, .byte 0x70 0x11, .byte 0x00 0x5A, .txnEnd, .cs 7 .high],
        [.transfer true [0x5A]]) := by decide
/-- V2: two dummy bytes, and P4 step 6's empty frame. -/
theorem test_transfer_readOnly :
    (after (.transfer (some []) 0 (some [0, 0]) 2) (handle 0 [9, 8])).map State.results =
      some [.transfer true [9, 8]] := by decide
/-- S7: no event. -/
theorem test_transfer_absent :
    (after (.transfer (some [0x70]) 1 none 1) (handle 0 [])).map (fun t => (t.events, t.cs, t.inTxn)) =
      some ([], .high, false) := by decide
/-- V3. -/
theorem test_writeMode0 : observed (.writeMode0 0xFF) (handle 0 [1, 2]) = some ([[0x88, 0xFF]], [.ok true]) := by decide
/-- V3: the width stays 4, not 1. -/
theorem test_writeMode1 : (after (.writeMode1 0x03) (handle 4 [1, 2])).map (fun t => (sentFrames t.events, t.width)) =
    some ([[0x90, 0x03]], 4) := by decide
/-- V3: a prefix at width 2, nothing at width 0. -/
theorem test_writeDataRegister_2 :
    observed (.writeDataRegister 0x12 0x34 0x56 0x78) (handle 2 [0, 0, 0]) = some ([[0x98, 0x12, 0x34]], [.ok true]) := by
  decide
theorem test_writeDataRegister_0 :
    observed (.writeDataRegister 0x12 0x34 0x56 0x78) (handle 0 [0]) = some ([[0x98]], [.ok true]) := by decide
/-- V4. -/
theorem test_loadCounterFromData : observed .loadCounterFromData (handle 0 [0]) = some ([[0xE0]], [.ok true]) := by decide
theorem test_loadOutputFromCounter : observed .loadOutputFromCounter (handle 3 [0]) = some ([[0xE8]], [.ok true]) := by decide
/-- V5: the byte received with the command is dropped; the width is not read. -/
theorem test_readMode0 : observed .readMode0 (handle 0 [0xFF, 0x83]) = some ([[0x48, 0x00]], [.u8 0x83]) := by decide
theorem test_readMode1 : observed .readMode1 (handle 4 [0xFF, 0x00]) = some ([[0x50, 0x00]], [.u8 0x00]) := by decide
theorem test_readStatus : observed .readStatus (handle 2 [0x00, 0xFF]) = some ([[0x70, 0x00]], [.u8 0xFF]) := by decide
/-- V5: signed and unsigned corners. -/
theorem test_readOutputRegister_4 :
    observed .readOutputRegister (handle 4 [0, 0xFF, 0xFF, 0xFF, 0xFE]) = some ([[0x68, 0, 0, 0, 0]], [.i32 (-2)]) := by decide
theorem test_readOutputRegister_3 :
    observed .readOutputRegister (handle 3 [0, 0x01, 0x00, 0x00]) = some ([[0x68, 0, 0, 0]], [.i32 65536]) := by decide
theorem test_readCounter_4 :
    observed .readCounter (handle 4 [0, 0xFF, 0xFF, 0xFF, 0xFE]) = some ([[0x60, 0, 0, 0, 0]], [.u32 4294967294]) := by decide
theorem test_readCounter_2 :
    observed .readCounter (handle 2 [0, 0xFF, 0xFE]) = some ([[0x60, 0, 0]], [.u32 65534]) := by decide
theorem test_readDataRegister_4 :
    observed .readDataRegister (handle 4 [0, 0x80, 0, 0, 0]) = some ([[0x58, 0, 0, 0, 0]], [.i32 (-2147483648)]) := by decide
theorem test_readDataRegister_2 :
    observed .readDataRegister (handle 2 [0, 0xAB, 0xCD]) = some ([[0x58, 0, 0]], [.i32 43981]) := by decide
/-- V6. -/
theorem test_clearMode0 : observed .clearMode0 (handle 2 [0, 0]) = some ([[0x88, 0x08]], [.ok true]) := by decide
theorem test_clearMode1 : (after .clearMode1 (handle 2 [0, 0])).map (fun t => (sentFrames t.events, t.width)) =
    some ([[0x90, 0x10]], 2) := by decide
theorem test_clearCounter : observed .clearCounter (handle 0 [0]) = some ([[0x20]], [.ok true]) := by decide
theorem test_clearStatus : observed .clearStatus (handle 0 [0]) = some ([[0x30]], [.ok true]) := by decide
/-- 45_config.md R91, example; V7's width map. -/
theorem test_configure : (after (.configure 0x03 0x02) (handle 0 [0, 0, 0, 0])).map
    (fun t => (sentFrames t.events, t.width, t.results)) = some ([[0x88, 0x03], [0x90, 0x02]], 2, [.noValue]) := by decide
theorem test_widthOf : [widthOf 0x00, widthOf 0xFC, widthOf 0x05, widthOf 0x06, widthOf 0xFF, widthOf 0x13] =
    [4, 4, 3, 2, 1, 1] := by decide
/-- V7. -/
theorem test_enable : observed .enable (handle 1 [0, 0xFF, 0, 0]) =
    some ([[0x50, 0x00], [0x90, 0xFB]], [.noValue]) := by decide
theorem test_disable : observed .disable (handle 1 [0, 0x13, 0, 0]) =
    some ([[0x50, 0x00], [0x90, 0x17]], [.noValue]) := by decide
/-- P5. -/
theorem test_defaultConfiguration :
    (after .defaultConfiguration (handle 0 [0, 0, 0, 0, 0, 0, 0, 0, 0, 0, 0, 0, 0x00, 0, 0])).map
      (fun t => (sentFrames t.events, t.width)) =
      some ([[0x88, 0x03], [0x90, 0x00], [0x98, 0, 0, 0, 0], [0x20], [0xE0], [0x50, 0x00], [0x90, 0x00]], 4) := by decide
/-- V8. -/
theorem test_begin : (after .beginOp (State.construct (some 7) 0)).map (fun t => (t.events, t.phase, t.width)) =
    some ([.busClaim, .pinOut 7, .cs 7 .high], .active, 0) := by decide
theorem test_end : (after .endOp (handle 4 [0, 0, 0x01, 0, 0])).map
    (fun t => (sentFrames t.events, t.events.drop 17, t.phase, t.cs)) =
    some ([[0x20], [0x50, 0x00], [0x90, 0x05]], [.busRelease, .pinHiZ 7], .ended, .undriven) := by decide
/-- V8: refusals. -/
theorem test_refused_beforeBegin : exec .readCounter (State.construct (some 7) 0) = .refused (.outsidePhase .constructed) := rfl
theorem test_refused_beginTwice : exec .beginOp (handle 4 []) = .refused (.outsidePhase .active) := rfl
/-- V9: stuck, the line Low, no result. -/
theorem test_stall : (after .readMode1 (stalling 4 [0x00])).map (fun t => (t.cs, t.inTxn, t.results, t.events.length)) =
    some (.low, true, [], 3) := by decide

/-! ### The reference device and the bus -/

/-- P1 steps 4 to 6 and R48: what the frames do to REFDEV. -/
def device : RefDev := { m0 := 0xAA, m1 := 0x02, str := 0x44, dtr := 0xFFFE, cntr := 0x22222222, otr := 0x33333333 }
theorem test_refdev_load : device.onFrame [0xE0] = some { device with cntr := 0xFFFE } := by decide
theorem test_refdev_write : device.onFrame [0x98, 0x12, 0x34] = some { device with dtr := 0x1234 } := by decide
/-- R48: a DTR write of the wrong length is outside REFDEV. -/
theorem test_refdev_wrongLength : device.onFrame [0x98, 0x12] = none := by decide
/-- R49. -/
theorem test_refdev_answer : device.answer 1 [0x58, 0x00, 0x00] = [none, some 0xFF, some 0xFE] := by decide
/-- R49: the same bytes in a write phase are unconstrained, to its end. -/
theorem test_refdev_discarded : device.answer 2 [0x48, 0x00] = [none, none] ∧
    device.answer 2 [0x60, 0x00, 0x00] = [none, none, some 0x22] := by decide

/-- P6: handle A's enable with handle B's clearCounter between its frames, at frame granularity. -/
def logA : List Event :=
  frameEvents 10 Config.settings [0x50, 0x00] [0, 0x03] ++ frameEvents 10 Config.settings [0x90, 0x03] [0, 0]
def logB : List Event := frameEvents 11 Config.settings [0x20] [0]
theorem test_weave_p6 : weave [0, 1, 0] [segments logA, segments logB] =
    (frameEvents 10 Config.settings [0x50, 0x00] [0, 0x03]).map (fun e => (0, e)) ++
    (frameEvents 11 Config.settings [0x20] [0]).map (fun e => (1, e)) ++
    (frameEvents 10 Config.settings [0x90, 0x03] [0, 0]).map (fun e => (0, e)) := by decide
/-- P6: B's frame inside A's is not admitted. -/
theorem test_exclusive_p6 : exclusive (((logA.take 3).map fun e => (0, e)) ++ (logB.map fun e => (1, e)) ++
    ((logA.drop 3).map fun e => (0, e))) = false := by decide

/-! ### Witnesses: the hypotheses of each statement can be met, clause by clause -/

theorem witness_DecodeOfEncode :
    (Instr.disable ≠ .beginOp ∧ (∀ wbuf wLen rbuf rLen, Instr.disable ≠ .transfer wbuf wLen rbuf rLen) ∧
      (∀ b0 b1 b2 b3, Instr.disable = .writeDataRegister b0 b1 b2 b3 → (1 : Width) = 4)) ∧
    (Instr.writeDataRegister 1 2 3 255 ≠ .beginOp ∧
      (∀ wbuf wLen rbuf rLen, Instr.writeDataRegister 1 2 3 255 ≠ .transfer wbuf wLen rbuf rLen) ∧
      (∀ b0 b1 b2 b3, Instr.writeDataRegister 1 2 3 255 = .writeDataRegister b0 b1 b2 b3 → (4 : Width) = 4)) := by
  simp
theorem witness_EncodeOfDecode : decodeFrame 1 [0x98, 0xFF] = .ok (.writeDataRegister 0xFF 0 0 0) := by decide
theorem witness_EncodeOfDecodeFrames : decodeFrames 4 [[0x20], [0x50, 0x00], [0x90, 0xFF]] = .ok .endOp := by decide
theorem witness_NeverFormedCommandsRejected : (0xC8 : Byte) ∉ formedCommands ∧ (0xFF : Byte) ∉ formedCommands := by decide
theorem witness_FrameBytePositions : (0 : Nat) < [(0x88 : Byte), 0x03].length ∧ 1 < [(0x88 : Byte), 0x03].length := by decide
theorem witness_OwnFrameTimes :
    (∀ wbuf wLen rbuf rLen, Instr.defaultConfiguration ≠ .transfer wbuf wLen rbuf rLen) ∧
    [(0x98 : Byte), 0, 0, 0, 0] ∈ encode 0 0 .defaultConfiguration := by
  refine ⟨by simp, by decide⟩
theorem witness_OperationsSendTheirEncoding :
    ∃ t, (handle 4 [0, 0x07, 0, 0]).inTxn = false ∧ exec .enable (handle 4 [0, 0x07, 0, 0]) = .next t ∧ t.inTxn = false :=
  ⟨_, rfl, rfl, by decide⟩
theorem witness_StepRunsPresentedOperation :
    let s := present .readStatus (handle 4 [])
    s.inTxn = false ∧ s.pending = .readStatus :: [] := by decide
theorem witness_StepRunsDecodedWord :
    decodeTableWord 8 0x88 = some (.writeMode0 0) ∧ (handle 4 []).Ready := by decide
theorem witness_IdleStepChangesNothing : (handle 4 []).pending = [] := by decide
theorem witness_StalledHandleIsStuck :
    ∃ t, stuckHandle.inTxn = true ∧ exec .readMode0 stuckHandle = .next t := ⟨_, rfl, rfl⟩
theorem witness_StepKeepsHandleInvariant :
    ∃ t, (present .beginOp (State.construct (some 7) 0)).Inv ∧
      step (present .beginOp (State.construct (some 7) 0)) = .next t := ⟨_, by decide, rfl⟩
theorem witness_OutsidePhaseIsRefused :
    Instr.endOp.wellFormed = true ∧ Instr.endOp ≠ .beginOp ∧ (State.construct none 0).phase ≠ .active ∧
    Instr.beginOp.wellFormed = true ∧ (handle 0 []).phase ≠ .constructed := by decide
theorem witness_AdmittedOperationRuns :
    (Instr.enable.wellFormed = true ∧ (handle 0 []).phase = (if Instr.enable = .beginOp then Phase.constructed else .active)) ∧
    (Instr.beginOp.wellFormed = true ∧
      (State.construct none 0).phase = (if Instr.beginOp = .beginOp then Phase.constructed else .active)) := by decide
theorem witness_MismatchedBuffersStop : (Instr.transfer (some []) 1 none 0).wellFormed = false := by decide
theorem witness_OnlyConfigureWritesWidth :
    (∃ t, exec (.configure 0 3) (handle 4 [0, 0, 0, 0]) = .next t) ∧
    (∃ t, exec .defaultConfiguration (stalling 1 [0]) = .next t) ∧
    (∃ t, exec (.writeMode1 3) (handle 4 [0, 0]) = .next t ∧ (∀ m0 m1, Instr.writeMode1 3 ≠ .configure m0 m1) ∧
      Instr.writeMode1 3 ≠ .defaultConfiguration) :=
  ⟨⟨_, rfl⟩, ⟨_, rfl⟩, ⟨_, rfl, by simp, by simp⟩⟩
theorem witness_OnlyMultiByteOperationsReadWidth :
    ∃ t, readsWidth .defaultConfiguration = false ∧ exec .defaultConfiguration (handle 0 [0]) = .next t := ⟨_, rfl, rfl⟩
theorem witness_ConstantsNeverChange : ∃ t, exec .endOp (handle 1 []) = .next t := ⟨_, rfl⟩
theorem witness_EveryOperationHasOneResult :
    (∃ t, (handle 1 []).inTxn = false ∧ exec .readCounter (handle 1 [0, 1]) = .next t ∧ t.inTxn = false) ∧
    (∃ t, exec .readCounter (stalling 1 [0]) = .next t ∧ t.inTxn = true) :=
  ⟨⟨_, rfl, rfl, by decide⟩, ⟨_, rfl, by decide⟩⟩
theorem witness_TransferCompletes :
    ((handle 0 []).Ready ∧ (handle 0 []).nextReplies (([] : List Byte).length + ([] : List Byte).length) = some []) ∧
    ((handle 0 [1, 2, 3]).Ready ∧
      (handle 0 [1, 2, 3]).nextReplies ([(0xC8 : Byte)].length + [(0 : Byte), 0].length) = some [1, 2, 3]) := by decide
theorem witness_AbsentBufferFails :
    (handle 0 []).Ready ∧ (Instr.transfer none 2 (some [0]) 1).wellFormed = true ∧
    (Instr.transfer (some [1]) 1 none 3).wellFormed = true ∧ (Instr.transfer none 0 none 0).wellFormed = true := by decide
theorem witness_AbsentBufferFails_others :
    ∃ t, (∀ wbuf wLen rbuf rLen, Instr.readCounter ≠ .transfer wbuf wLen rbuf rLen) ∧
      exec .readCounter (handle 1 [0, 1]) = .next t := ⟨_, by simp, rfl⟩
theorem witness_StalledTransferIsStuck :
    ((stalling 4 []).Ready ∧ 0 < [(0x50 : Byte)].length + [(0 : Byte)].length ∧
      (stalling 4 []).nextReplies 0 = some [] ∧ (stalling 4 []).replyAt 0 = none) ∧
    ((stalling 4 [9]).Ready ∧ 1 < [(0x50 : Byte)].length + [(0 : Byte)].length ∧
      (stalling 4 [9]).nextReplies 1 = some [9] ∧ (stalling 4 [9]).replyAt 1 = none) := by decide
theorem witness_WriteModeCompletes : (handle 0 [1, 2]).Ready ∧ (handle 0 [1, 2]).nextReplies 2 = some [1, 2] := by decide
theorem witness_WriteDataRegisterCompletes :
    ((handle 0 [1]).Ready ∧ (handle 0 [1]).nextReplies (1 + (handle 0 [1]).width.val) = some [1]) ∧
    ((handle 4 [1, 2, 3, 4, 5]).Ready ∧
      (handle 4 [1, 2, 3, 4, 5]).nextReplies (1 + (handle 4 []).width.val) = some [1, 2, 3, 4, 5]) := by decide
theorem witness_LoadsComplete : (handle 0 [1]).Ready ∧ (handle 0 [1]).nextReplies 1 = some [1] := by decide
theorem witness_SingleByteReadsComplete : (handle 0 [1, 2]).Ready ∧ (handle 0 [1, 2]).nextReplies 2 = some [1, 2] := by decide
theorem witness_MultiByteReadsComplete :
    ((handle 0 [1]).Ready ∧ (handle 0 [1]).nextReplies (1 + (handle 0 [1]).width.val) = some (1 :: [])) ∧
    ((handle 4 [1, 2, 3, 4, 5]).Ready ∧
      (handle 4 [1, 2, 3, 4, 5]).nextReplies (1 + (handle 4 []).width.val) = some (1 :: [2, 3, 4, 5])) := by decide
theorem witness_UnconfiguredWidthMovesNothing :
    (handle 0 [1]).Ready ∧ (handle 0 [1]).width = 0 ∧ (handle 0 [1]).nextReplies 1 = some [1] := by decide
theorem witness_AssemblyIsBigEndian : ([] : List Byte).length ≤ 4 ∧ [(1 : Byte), 2, 3, 4].length ≤ 4 := by decide
theorem witness_SignedReading : [(0xFF : Byte), 0xFE, 0xFF].length < 4 := by decide
theorem witness_ClearModesComplete : (handle 2 [1, 2]).Ready ∧ (handle 2 [1, 2]).nextReplies 2 = some [1, 2] := by decide
theorem witness_ClearCommandsComplete : (handle 2 [1]).Ready ∧ (handle 2 [1]).nextReplies 1 = some [1] := by decide
theorem witness_ConfigureCompletes :
    (handle 2 [1, 2, 3, 4]).Ready ∧ (handle 2 [1, 2, 3, 4]).nextReplies 4 = some [1, 2, 3, 4] := by decide
theorem witness_StalledConfigureKeepsWidth :
    ((stalling 2 []).Ready ∧ 0 < 4 ∧ (stalling 2 []).nextReplies 0 = some [] ∧ (stalling 2 []).replyAt 0 = none) ∧
    ((stalling 2 [1, 2]).Ready ∧ 2 < 4 ∧ (stalling 2 [1, 2]).nextReplies 2 = some [1, 2] ∧
      (stalling 2 [1, 2]).replyAt 2 = none) := by decide
theorem witness_EnableDisableComplete :
    (handle 2 [1, 2, 3, 4]).Ready ∧ (handle 2 [1, 2, 3, 4]).nextReplies 4 = some [1, 2, 3, 4] ∧ (2 < 8 ∧ 7 < 8) := by decide
theorem witness_DefaultConfigurationCompletes :
    (handle 0 [1, 2, 3, 4, 5, 6, 7, 8, 9, 10, 11, 12, 13, 14, 15]).Ready ∧
    (handle 0 [1, 2, 3, 4, 5, 6, 7, 8, 9, 10, 11, 12, 13, 14, 15]).nextReplies 15 =
      some [1, 2, 3, 4, 5, 6, 7, 8, 9, 10, 11, 12, 13, 14, 15] := by decide
theorem witness_BeginCompletes :
    (State.construct none 3).phase = .constructed ∧ (State.construct none 3).inTxn = false := by decide
theorem witness_EndCompletes :
    (handle 0 [1, 2, 3, 4, 5]).Ready ∧ (handle 0 [1, 2, 3, 4, 5]).nextReplies 5 = some [1, 2, 3, 4, 5] := by decide

/-- What `device` answers to a read of MDR0, MDR1, STR, CNTR, DTR and OTR at width 2. -/
theorem witness_ReadsReturnDeviceRegisters :
    ∀ p ∈ [(Instr.readMode0, [(7 : Byte), 0xAA]), (.readMode1, [7, 0x02]), (.readStatus, [7, 0x44]),
        (.readCounter, [7, 0x22, 0x22]), (.readDataRegister, [7, 0xFF, 0xFE]), (.readOutputRegister, [7, 0x33, 0x33])],
      (handle 2 p.2).Ready ∧ widthAgrees device (handle 2 p.2) ∧
        ∃ t, exec p.1 (handle 2 p.2) = .next t ∧ t.inTxn = false ∧
          answersAsRefDev device (writePhases 2 p.1) (t.events.drop (handle 2 p.2).events.length) := by
  simp only [List.mem_cons, List.not_mem_nil, or_false, forall_eq_or_imp, forall_eq]
  refine ⟨?_, ?_, ?_, ?_, ?_, ?_⟩ <;> exact ⟨by decide, by decide, _, rfl, by decide, by decide⟩
/-- The vector of S4 at width 2. -/
theorem witness_CounterRoundTrip :
    let s := handle 2 [0, 0, 0, 0, 0, 0xBE, 0xEF]
    s.Ready ∧ widthAgrees device s ∧
      ∃ t1 t2 t3, exec (.writeDataRegister 0xBE 0xEF 0 0) s = .next t1 ∧ exec .loadCounterFromData t1 = .next t2 ∧
        exec .readCounter t2 = .next t3 ∧ t3.inTxn = false ∧
        answersAsRefDev device
          (writePhases s.width (.writeDataRegister 0xBE 0xEF 0 0) ++ writePhases t1.width .loadCounterFromData ++
            writePhases t2.width .readCounter)
          (t3.events.drop s.events.length) :=
  ⟨by decide, by decide, _, _, _, rfl, rfl, rfl, by decide, by decide⟩
/-- The vector of S6. -/
theorem witness_ClearedCounterReadsZero :
    let s := handle 2 [0, 0, 0, 0]
    s.Ready ∧ widthAgrees device s ∧ ∃ t1 t2, exec .clearCounter s = .next t1 ∧ exec .readCounter t1 = .next t2 ∧
      t2.inTxn = false ∧
      answersAsRefDev device (writePhases s.width .clearCounter ++ writePhases t1.width .readCounter)
        (t2.events.drop s.events.length) :=
  ⟨by decide, by decide, _, _, rfl, rfl, by decide, by decide⟩
theorem witness_EnableDisableOnDevice :
    ∀ i ∈ [Instr.enable, .disable],
      (handle 2 [0, 0x02, 0, 0]).Ready ∧ widthAgrees device (handle 2 [0, 0x02, 0, 0]) ∧
        ∃ t, exec i (handle 2 [0, 0x02, 0, 0]) = .next t ∧ t.inTxn = false ∧
          answersAsRefDev device (writePhases 2 i) (t.events.drop (handle 2 [0, 0x02, 0, 0]).events.length) := by
  simp only [List.mem_cons, List.not_mem_nil, or_false, forall_eq_or_imp, forall_eq]
  refine ⟨?_, ?_⟩ <;> exact ⟨by decide, by decide, _, rfl, by decide, by decide⟩
theorem witness_WidthAgreement :
    ∀ i ∈ [Instr.configure 3 1, .clearMode1, .writeMode1 0x02],
      (handle 2 [0, 0, 0, 0]).Ready ∧ ∃ t, exec i (handle 2 [0, 0, 0, 0]) = .next t ∧ t.inTxn = false := by
  simp only [List.mem_cons, List.not_mem_nil, or_false, forall_eq_or_imp, forall_eq]
  refine ⟨?_, ?_, ?_⟩ <;> exact ⟨by decide, _, rfl, by decide⟩
theorem witness_DiscardedBytesUnconstrained : (1 < [(0x48 : Byte), 0x00].length ∧ 1 < 2) ∧
    [(7 : Byte), 9].length = [(0x48 : Byte), 0x00].length := by decide
theorem witness_DeviceAnswersBigEndian : 0 < device.devW.val ∧ 1 < device.devW.val := by decide
theorem witness_WritePhasesFitEncoding :
    ∀ i ∈ [Instr.transfer (some [0x48, 0x00]) 2 (some []) 0, .transfer none 0 none 0, .readCounter, .endOp],
      i.wellFormed = true := by decide
theorem witness_WeaveKeepsHandleOrder : [logA, logB][1]? = some logB := by decide

end Sys2Proof.Tests
end

section
/-! PROOF. What the signed reading answers (00_scope.md R8), the value of big-endian assembly (43_read.md R81) as the frame number of its bytes, and O35 (43_read.md R85) from the two. -/

namespace Sys2Proof.Machine

/-! ### The signed reading -/

theorem toSigned32_eq_toInt (u : Word) : toSigned32 u = u.toInt := by
  rw [BitVec.toInt_eq_toNat_cond, toSigned32]
  split <;> split <;> omega

theorem toSigned32_eq_toNat_of_lt {u : Word} (h : u.toNat < 2 ^ 31) : toSigned32 u = (u.toNat : Int) :=
  if_pos h

theorem toSigned32_emod (u : Word) : toSigned32 u % 2 ^ 32 = (u.toNat : Int) := by
  have hu := u.isLt
  rw [toSigned32]
  split <;> omega

theorem toSigned32_neg_iff (u : Word) : toSigned32 u < 0 ↔ 2 ^ 31 ≤ u.toNat := by
  rw [toSigned32_eq_toInt, BitVec.toInt_neg_iff]
  omega

/-! ### Assembly as a number -/

theorem frameNumber_lt (bs : List Byte) : frameNumber bs < 256 ^ bs.length := by
  induction bs with
  | nil => simp [frameNumber]
  | cons b bs ih =>
    have hb : b.toNat + 1 ≤ 256 := b.isLt
    calc frameNumber (b :: bs)
        < b.toNat * 256 ^ bs.length + 256 ^ bs.length := Nat.add_lt_add_left ih _
      _ = (b.toNat + 1) * 256 ^ bs.length := (Nat.succ_mul ..).symm
      _ ≤ 256 * 256 ^ bs.length := Nat.mul_le_mul_right _ hb
      _ = 256 ^ (b :: bs).length := (Nat.pow_succ' ..).symm

/-- One round of the loop of R81. -/
theorem toNat_shiftLeft_or_byte (acc : Word) (b : Byte) :
    ((acc <<< 8) ||| b.setWidth 32).toNat = (acc.toNat * 256 + b.toNat) % 2 ^ 32 := by
  have hb : b.toNat < 2 ^ 8 := b.isLt
  have hdisjoint : (acc <<< 8) ||| b.setWidth 32 = acc <<< 8 + b.setWidth 32 := by
    refine (BitVec.add_eq_or_of_and_eq_zero _ _ ?_).symm
    ext i hi
    simp only [BitVec.getElem_and, BitVec.getElem_shiftLeft, BitVec.getElem_setWidth, BitVec.getElem_zero]
    by_cases h : i < 8
    · simp [h]
    · simp [BitVec.getLsbD_of_ge b i (by omega)]
  rw [hdisjoint, BitVec.toNat_add, BitVec.toNat_shiftLeft, BitVec.toNat_setWidth, Nat.shiftLeft_eq]
  omega

theorem toNat_assembleFrom (acc : Word) (bs : List Byte) :
    (assembleFrom acc bs).toNat = (acc.toNat * 256 ^ bs.length + frameNumber bs) % 2 ^ 32 := by
  induction bs generalizing acc with
  | nil => simp [assembleFrom, frameNumber, Nat.mod_eq_of_lt acc.isLt]
  | cons b bs ih =>
    rw [assembleFrom, ih, toNat_shiftLeft_or_byte, frameNumber, Nat.add_mod, Nat.mod_mul_mod, ← Nat.add_mod,
      List.length_cons]
    ring_nf

theorem toNat_assemble (bs : List Byte) : (assemble bs).toNat = frameNumber bs % 2 ^ 32 := by
  simp [assemble, toNat_assembleFrom]

/-- Up to 4 bytes nothing is lost. -/
theorem toNat_assemble_of_length_le {bs : List Byte} (h : bs.length ≤ 4) :
    (assemble bs).toNat = frameNumber bs := by
  have hlt : frameNumber bs < 256 ^ bs.length := frameNumber_lt bs
  have hle : 256 ^ bs.length ≤ 256 ^ 4 := Nat.pow_le_pow_right (by decide) h
  rw [toNat_assemble]
  exact Nat.mod_eq_of_lt (by omega)

theorem toNat_assemble_lt {bs : List Byte} (h : bs.length ≤ 4) : (assemble bs).toNat < 256 ^ bs.length :=
  toNat_assemble_of_length_le h ▸ frameNumber_lt bs

/-! ### O35 -/

theorem toSigned32_assemble_of_length_lt {bs : List Byte} (h : bs.length < 4) :
    toSigned32 (assemble bs) = ((assemble bs).toNat : Int) := by
  have hlt : (assemble bs).toNat < 256 ^ bs.length := toNat_assemble_lt h.le
  have hle : 256 ^ bs.length ≤ 256 ^ 3 := Nat.pow_le_pow_right (by decide) (by omega)
  exact toSigned32_eq_toNat_of_lt (by omega)

theorem toSigned32_assemble_four_neg_iff (b0 b1 b2 b3 : Byte) :
    toSigned32 (assemble [b0, b1, b2, b3]) < 0 ↔ 0x80 ≤ b0.toNat := by
  have hrest : frameNumber [b1, b2, b3] < 256 ^ 3 := frameNumber_lt _
  have hval : (assemble [b0, b1, b2, b3]).toNat = b0.toNat * 256 ^ 3 + frameNumber [b1, b2, b3] :=
    toNat_assemble_of_length_le le_rfl
  rw [toSigned32_neg_iff, hval]
  omega

/-- Settles O35: the signed reading is the two's complement value, and a pattern of fewer than 4 bytes stays below
`256 ^ 3`, so its sign bit is clear. -/
theorem signedReading : Obligations.SignedReading := by
  refine ⟨fun u => ⟨?_, ?_, toSigned32_emod u⟩, fun _ => toSigned32_assemble_of_length_lt,
    toSigned32_assemble_four_neg_iff⟩
  · rw [toSigned32_eq_toInt]
    exact u.le_toInt
  · rw [toSigned32_eq_toInt]
    exact u.toInt_lt

end Sys2Proof.Machine
end

section
/-! PROOF. What every operation does to a handle, once: it leads onward from its state, and either gives a result of its kind outside a frame or is stuck in one. That a step keeps the invariant (10_state.md R14 to R22), the constants (R16, R17) and the one result (R24) follow. -/

namespace Sys2Proof.Machine

/-! ### The invariant, phase by phase -/

theorem State.inv_iff_of_constructed {s : State} (hp : s.phase = .constructed) :
    s.Inv ↔ s.settings = Config.settings ∧ Wire.run s.csLine s.settings .fresh s.events = some .fresh ∧
      s.cs = .undriven ∧ s.bus = .unclaimed ∧ s.inTxn = false ∧ s.width = 0 := by
  simp [State.Inv, State.wire, State.expectedCs, State.expectedBus, hp]

theorem State.inv_iff_of_ready {s : State} (h : s.Ready) :
    s.Inv ↔ s.settings = Config.settings ∧ Wire.run s.csLine s.settings .fresh s.events = some .idle ∧
      s.cs = .high ∧ s.bus = .claimed := by
  simp [State.Inv, State.wire, State.expectedCs, State.expectedBus, h.1, h.2]

theorem State.inv_iff_of_open {s : State} (hp : s.phase = .active) (hi : s.inTxn = true) :
    s.Inv ↔ s.settings = Config.settings ∧ Wire.run s.csLine s.settings .fresh s.events = some .busy ∧
      s.cs = .low ∧ s.bus = .claimed := by
  simp [State.Inv, State.wire, State.expectedCs, State.expectedBus, hp, hi]

theorem State.inv_iff_of_ended {s : State} (hp : s.phase = .ended) :
    s.Inv ↔ s.settings = Config.settings ∧ Wire.run s.csLine s.settings .fresh s.events = some .done ∧
      s.cs = .undriven ∧ s.bus = .unclaimed ∧ s.inTxn = false := by
  simp [State.Inv, State.wire, State.expectedCs, State.expectedBus, hp]

/-- The place of the protocol after more events, from the place before them. -/
theorem wire_run_append_of {line : LineId} {settings : Settings} {p q : Wire} {a : List Event}
    (h : Wire.run line settings p a = some q) (b : List Event) :
    Wire.run line settings p (a ++ b) = Wire.run line settings q b := by
  rw [wire_run_append, h, Option.bind_some]

/-! ### From one state onward -/

/-- What any piece of an operation leaves of the state before it, its result not yet observed. -/
structure State.Onward (s t : State) : Prop where
  settings : t.settings = s.settings
  csLine : t.csLine = s.csLine
  pending : t.pending = s.pending
  results : t.results = s.results
  events : ∃ es, t.events = s.events ++ es
  inv : s.Inv → t.Inv

namespace State.Onward

theorem trans {s t u : State} (h : s.Onward t) (h' : t.Onward u) : s.Onward u where
  settings := h'.settings.trans h.settings
  csLine := h'.csLine.trans h.csLine
  pending := h'.pending.trans h.pending
  results := h'.results.trans h.results
  events := by
    obtain ⟨es, hes⟩ := h.events
    obtain ⟨es', hes'⟩ := h'.events
    exact ⟨es ++ es', by rw [hes', hes, List.append_assoc]⟩
  inv := h'.inv ∘ h.inv

theorem afterFrame {s : State} (h : s.Ready) (sent received : List Byte) (n : Nat) :
    s.Onward (s.afterFrame (frameEvents s.csLine s.settings sent received) n) := by
  refine ⟨rfl, rfl, rfl, rfl, ⟨_, rfl⟩, fun hinv => ?_⟩
  obtain ⟨hset, hrun, -, hbus⟩ := (State.inv_iff_of_ready h).1 hinv
  have hready : (s.afterFrame (frameEvents s.csLine s.settings sent received) n).Ready := ⟨h.1, rfl⟩
  exact (State.inv_iff_of_ready hready).2
    ⟨hset, (wire_run_append_of hrun _).trans (wire_run_frameEvents ..), rfl, hbus⟩

theorem stalled {s : State} (h : s.Ready) (sent received : List Byte) (n : Nat) :
    s.Onward (s.stalled (openFrameEvents s.csLine s.settings sent received) n) := by
  refine ⟨rfl, rfl, rfl, rfl, ⟨_, rfl⟩, fun hinv => ?_⟩
  obtain ⟨hset, hrun, -, hbus⟩ := (State.inv_iff_of_ready h).1 hinv
  exact (State.inv_iff_of_open (s := s.stalled _ n) h.1 rfl).2
    ⟨hset, (wire_run_append_of hrun _).trans (wire_run_openFrameEvents ..), rfl, hbus⟩

theorem takeStale (s : State) : s.Onward s.takeStale :=
  ⟨rfl, rfl, rfl, rfl, ⟨[], (List.append_nil _).symm⟩, id⟩

theorem setWidth {s : State} (h : s.Ready) (w : Width) : s.Onward (s.setWidth w) :=
  ⟨rfl, rfl, rfl, rfl, ⟨[], (List.append_nil _).symm⟩,
    fun hinv => (State.inv_iff_of_ready (s := s.setWidth w) h).2 ((State.inv_iff_of_ready h).1 hinv)⟩

/-- The lifecycle's events of begin lead from the start of the protocol to between frames (46_lifecycle.md R95). -/
theorem begun {s : State} (hp : s.phase = .constructed) (hi : s.inTxn = false) :
    s.Onward ((csDrive .high (pinOutput (busBegin s))).setPhase .active) := by
  have hevents : ((csDrive .high (pinOutput (busBegin s))).setPhase .active).events
      = s.events ++ [.busClaim, .pinOut s.csLine, .cs s.csLine .high] := by
    simp [csDrive, pinOutput, busBegin]
  refine ⟨rfl, rfl, rfl, rfl, ⟨_, hevents⟩, fun hinv => ?_⟩
  obtain ⟨hset, hrun, -⟩ := (State.inv_iff_of_constructed hp).1 hinv
  have hready : ((csDrive .high (pinOutput (busBegin s))).setPhase .active).Ready := ⟨rfl, hi⟩
  refine (State.inv_iff_of_ready hready).2 ⟨hset, ?_, rfl, rfl⟩
  rw [hevents]
  exact (wire_run_append_of hrun _).trans (by simp [Wire.run, Wire.next])

/-- The lifecycle's events of end lead from between frames to the end of the protocol (46_lifecycle.md R96). -/
theorem ended {s : State} (h : s.Ready) :
    s.Onward ((pinRelease (busEnd s)).setPhase .ended) := by
  have hevents : ((pinRelease (busEnd s)).setPhase .ended).events
      = s.events ++ [.busRelease, .pinHiZ s.csLine] := by
    simp [pinRelease, busEnd]
  refine ⟨rfl, rfl, rfl, rfl, ⟨_, hevents⟩, fun hinv => ?_⟩
  obtain ⟨hset, hrun, -⟩ := (State.inv_iff_of_ready h).1 hinv
  refine (State.inv_iff_of_ended rfl).2 ⟨hset, ?_, rfl, rfl, h.2⟩
  rw [hevents]
  exact (wire_run_append_of hrun _).trans (by simp [Wire.run, Wire.next])

end State.Onward

/-! ### Pieces made of whole frames -/

/-- The state of an operation that is stuck in a frame. -/
abbrev State.Jammed (s : State) : Prop := s.inTxn = true ∧ s.cs = .low

/-- The piece leads onward from `s`: to a value with `P` on a handle that is still Ready, or into a stuck frame. -/
def Flow.Framed {α : Type} (m : Flow α) (s : State) (P : α → Prop) : Prop :=
  m.Ends (fun a t => P a ∧ s.Onward t ∧ t.Ready) (fun t => s.Onward t ∧ t.Jammed)

namespace Flow.Framed
variable {α β : Type} {m : Flow α} {s : State} {P : α → Prop}

/-- What a framed piece does is followed by what comes after it, whether that is framed or ends the handle. -/
theorem ends_andThen {k : α → State → Flow β} {D : β → State → Prop} (h : m.Framed s P)
    (hk : ∀ a t, P a → s.Onward t → t.Ready → (k a t).Ends D fun u => t.Onward u ∧ u.Jammed) :
    (m.andThen k).Ends D fun u => s.Onward u ∧ u.Jammed :=
  Flow.ends_andThen h fun a t ⟨ha, hst, ht⟩ =>
    Flow.ends_mono (hk a t ha hst ht) (fun _ _ hD => hD) fun _ ⟨htu, hu⟩ => ⟨hst.trans htu, hu⟩

theorem andThen {k : α → State → Flow β} {Q : β → Prop} (h : m.Framed s P)
    (hk : ∀ a t, P a → t.Ready → (k a t).Framed t Q) : (m.andThen k).Framed s Q :=
  h.ends_andThen fun a t ha hst ht =>
    Flow.ends_mono (hk a t ha ht) (fun _ _ ⟨hb, htu, hu⟩ => ⟨hb, hst.trans htu, hu⟩) fun _ hu => hu

theorem giving {f : α → β} {Q : β → Prop} (h : m.Framed s P) (hf : ∀ a, P a → Q (f a)) :
    (m.giving f).Framed s Q :=
  Flow.ends_giving (Flow.ends_mono h (fun a _ ⟨ha, ht⟩ => ⟨hf a ha, ht⟩) fun _ ht => ht)

end Flow.Framed

theorem isI32_toSigned32 (u : Word) : isI32 (.i32 (toSigned32 u)) = true := by
  rw [isI32, toSigned32_eq_toInt]
  exact decide_eq_true ⟨u.le_toInt, u.toInt_lt⟩

theorem isTrue_ok {b : Bool} (h : b = true) : isTrue (.ok b) = true := by
  rw [h]
  rfl

section
variable {s : State} (h : s.Ready)
include h

theorem frame_framed (w : List Byte) (n : Nat) :
    (frame w n s).Framed s fun r => r.length = n := by
  refine frame_ends (fun bs hbs => ⟨?_, .afterFrame h .., h.1, rfl⟩)
    fun k bs _ _ _ => ⟨.stalled h .., rfl, rfl⟩
  have hlen : bs.length = w.length + n := State.repliesFrom_length hbs
  simp [hlen]

theorem txn_framed (wbuf : Option (List Byte)) (rbuf : Option Nat) :
    (txn wbuf rbuf s).Framed s fun a => a.1 = (wbuf.isSome && rbuf.isSome) ∧ a.2.length = rbuf.getD 0 := by
  by_cases habs : wbuf = none ∨ rbuf = none
  · rw [txn_absent habs]
    have hfail : (wbuf.isSome && rbuf.isSome) = false := by
      rcases habs with rfl | rfl <;> simp
    exact ⟨⟨hfail.symm, staleBuffer_length ..⟩, .takeStale s, h⟩
  · obtain ⟨⟨w, rfl⟩, n, rfl⟩ : (∃ w, wbuf = some w) ∧ ∃ n, rbuf = some n := by
      simpa [not_or, Option.ne_none_iff_exists'] using habs
    exact (frame_framed h w n).giving fun r hr => ⟨rfl, hr⟩

theorem memRead_framed (r : Reg) (n : Nat) : (memRead r n s).Framed s fun _ => True :=
  (txn_framed h _ _).giving fun _ _ => trivial

theorem memWrite_framed (r : Reg) (n : Nat) (bytes : List Byte) :
    (memWrite r n bytes s).Framed s (· = true) :=
  (txn_framed h _ _).giving fun _ ha => ha.1

theorem cmd_framed (c : Byte) : (cmd c s).Framed s (· = true) :=
  (txn_framed h _ _).giving fun _ ha => ha.1

theorem readByte_framed (r : Reg) : (readByte r s).Framed s fun _ => True :=
  (memRead_framed h r 1).giving fun _ _ => trivial

theorem readWide_framed (r : Reg) : (readWide r s).Framed s fun _ => True :=
  (memRead_framed h r s.width.val).giving fun _ _ => trivial

/-- A wide read that is then taken as signed. -/
theorem readSigned_framed (r : Reg) :
    ((readWide r s).giving toSigned32).Framed s fun v => isI32 (.i32 v) = true :=
  (readWide_framed h r).giving fun u _ => isI32_toSigned32 u

theorem configure_framed (m0 m1 : Byte) : (configure m0 m1 s).Framed s fun _ => True :=
  (memWrite_framed h _ _ _).andThen fun _ _ _ ht =>
    (memWrite_framed ht _ _ _).andThen fun _ _ _ hu => ⟨trivial, .setWidth hu _, hu⟩

/-- A read of MDR1 and a write back, as enable and disable do (45_config.md R92, R93). -/
theorem readModifyWrite_framed (f : Byte → Byte) :
    ((readMode1 s).andThen fun v t => (writeMode1 (f v) t).giving fun _ => ()).Framed s fun _ => True :=
  (readByte_framed h _).andThen fun _ _ _ ht => (memWrite_framed ht _ _ _).giving fun _ _ => trivial

theorem defaultConfiguration_framed : (defaultConfiguration s).Framed s fun _ => True :=
  (configure_framed h _ _).andThen fun _ _ _ h1 =>
    (memWrite_framed h1 _ _ _).andThen fun _ _ _ h2 =>
      (cmd_framed h2 _).andThen fun _ _ _ h3 =>
        (cmd_framed h3 _).andThen fun _ _ _ h4 => readModifyWrite_framed h4 countingEnabled

end

/-! ### Every operation -/

/-- How a body ends: with a result of the operation's kind outside a frame, or stuck in one. -/
def Flow.Fits (m : Flow Result) (i : Instr) (s : State) : Prop :=
  m.Ends (fun r t => resultFits i r = true ∧ s.Onward t ∧ t.inTxn = false)
    (fun t => s.Onward t ∧ t.Jammed)

theorem Flow.Framed.fits {α : Type} {m : Flow α} {s : State} {P : α → Prop} {i : Instr}
    {f : α → Result} (h : m.Framed s P) (hf : ∀ a, P a → resultFits i (f a) = true) :
    (m.giving f).Fits i s :=
  Flow.ends_mono (h.giving hf) (fun _ _ ⟨hr, hst, ht⟩ => ⟨hr, hst, ht.2⟩) fun _ ht => ht

theorem beginOp_fits {s : State} (hp : s.phase = .constructed) (hi : s.inTxn = false) :
    (bodyOf .beginOp s).Fits .beginOp s :=
  ⟨rfl, .begun hp hi, hi⟩

theorem endOp_fits {s : State} (h : s.Ready) : (bodyOf .endOp s).Fits .endOp s :=
  Flow.ends_giving <| (cmd_framed h _).ends_andThen fun _ _ _ h1 hr1 =>
    (readModifyWrite_framed hr1 countingDisabled).ends_andThen fun _ _ _ h2 hr2 =>
      ⟨rfl, (h1.trans h2).trans (.ended hr2), hr2.2⟩

/-- A register operation on a Ready handle. -/
theorem bodyOf_fits_of_ready {i : Instr} {s : State} (hb : i ≠ .beginOp) (h : s.Ready) :
    (bodyOf i s).Fits i s := by
  cases i with
  | transfer wbuf wLen rbuf rLen =>
    refine (txn_framed h wbuf (rbuf.map List.length)).fits fun (ok, r) ⟨hok, hr⟩ => ?_
    simp only [Option.isSome_map] at hok hr
    simp [resultFits, isTransfer, hok, hr]
  | writeMode0 | writeMode1 | writeDataRegister | clearMode0 | clearMode1 =>
    exact (memWrite_framed h _ _ _).fits fun _ => isTrue_ok
  | loadCounterFromData | loadOutputFromCounter | clearCounter | clearStatus =>
    exact (cmd_framed h _).fits fun _ => isTrue_ok
  | readMode0 | readMode1 | readStatus => exact (readByte_framed h _).fits fun _ _ => rfl
  | readOutputRegister | readDataRegister => exact (readSigned_framed h _).fits fun _ => id
  | readCounter => exact (readWide_framed h _).fits fun _ _ => rfl
  | configure m0 m1 => exact (configure_framed h m0 m1).fits fun _ _ => rfl
  | enable => exact (readModifyWrite_framed h countingEnabled).fits fun _ _ => rfl
  | disable => exact (readModifyWrite_framed h countingDisabled).fits fun _ _ => rfl
  | defaultConfiguration => exact (defaultConfiguration_framed h).fits fun _ _ => rfl
  | beginOp => exact absurd rfl hb
  | endOp => exact endOp_fits h

theorem bodyOf_fits {i : Instr} {s : State} (hp : s.phase = phaseOf i) (hi : s.inTxn = false) :
    (bodyOf i s).Fits i s := by
  by_cases hb : i = .beginOp
  · subst hb
    exact beginOp_fits hp hi
  · exact bodyOf_fits_of_ready hb ⟨by rw [hp, phaseOf, if_neg hb], hi⟩

/-- Everything exec can answer as a next state. -/
theorem exec_cases {i : Instr} {s t : State} (h : exec i s = .next t) :
    (s.inTxn = true ∧ t = s) ∨
    (∃ r u, resultFits i r = true ∧ s.Onward u ∧ u.inTxn = false ∧
      t = { u with results := u.results ++ [r] }) ∨
    (s.Onward t ∧ t.Jammed) := by
  obtain ⟨-, hp, ⟨hi, rfl⟩ | ⟨hi, rfl⟩⟩ := exec_next h
  · exact .inl ⟨hi, rfl⟩
  · have hfits : (bodyOf i s).Fits i s := bodyOf_fits hp hi
    cases hbody : bodyOf i s with
    | done r u =>
      rw [hbody] at hfits
      obtain ⟨hr, hsu, hu⟩ := hfits
      exact .inr (.inl ⟨r, u, hr, hsu, hu, rfl⟩)
    | stuck u =>
      rw [hbody] at hfits
      exact .inr (.inr hfits)

/-- A result that is observed later changes nothing of the invariant. -/
theorem exec_keeps_inv {i : Instr} {s t : State} (h : exec i s = .next t) (hinv : s.Inv) : t.Inv := by
  obtain ⟨-, rfl⟩ | ⟨r, u, -, hsu, -, rfl⟩ | ⟨hst, -⟩ := exec_cases h
  · exact hinv
  · exact hsu.inv hinv
  · exact hst.inv hinv

/-! ### O16, O23, O24 -/

/-- Settles O16: a step is an operation of the state without what is presented, which the invariant does not see. -/
theorem stepKeepsHandleInvariant : Obligations.StepKeepsHandleInvariant := by
  intro s t hinv h
  obtain ⟨rfl, -⟩ | ⟨-, i, rest, -, hexec⟩ := step_cases h
  · exact hinv
  · exact exec_keeps_inv hexec hinv

/-- Settles O23: each of the three is a field that every piece of an operation leaves alone. -/
theorem constantsNeverChange : Obligations.ConstantsNeverChange := by
  intro i s t h
  obtain ⟨-, rfl⟩ | ⟨r, u, -, hsu, -, rfl⟩ | ⟨hst, -⟩ := exec_cases h
  · exact ⟨rfl, rfl, rfl⟩
  · exact ⟨hsu.settings, hsu.csLine, hsu.pending⟩
  · exact ⟨hst.settings, hst.csLine, hst.pending⟩

/-- Settles O24: a body that completes adds its one result to those it found, and a stuck one adds none. -/
theorem everyOperationHasOneResult : Obligations.EveryOperationHasOneResult := by
  intro i s t hi h
  obtain ⟨hi', -⟩ | ⟨r, u, hr, hsu, hu, rfl⟩ | ⟨hst, hopen, hlow⟩ := exec_cases h
  · exact absurd hi' (by simp [hi])
  · exact ⟨hsu.events, .inl ⟨hu, r, hr, congrArg (· ++ [r]) hsu.results⟩⟩
  · exact ⟨hst.events, .inr ⟨hopen, hlow, hst.results⟩⟩

end Sys2Proof.Machine
end

section
/-! PROOF. The state after construction (10_state.md R30) and the step that runs what is presented (R20, R28). -/

namespace Sys2Proof.Machine

/-- Settles O11: construction gives each field its value; the line is the argument where there is one. -/
theorem constructionState : Obligations.ConstructionState := by
  refine ⟨fun line busDefault => ⟨rfl, rfl, ?_, ?_, rfl, rfl, rfl, rfl⟩, _, _, rfl⟩
  · rintro l rfl
    rfl
  · rintro rfl
    rfl

/-- Settles O12: the operation is taken from the front, since the handle is not stuck. -/
theorem stepRunsPresentedOperation : Obligations.StepRunsPresentedOperation := by
  intro s i rest hi hpending
  have htake : takeOperation s = some (i, { s with pending := rest }) := by
    simp [takeOperation, hi, hpending]
  simp [step, htake]

theorem construct_inv (line : Option LineId) (busDefault : LineId) :
    (State.construct line busDefault).Inv :=
  (State.inv_iff_of_constructed rfl).2 ⟨rfl, rfl, rfl, rfl, rfl, rfl⟩

/-- Settles O17: reset is one of the constructions. -/
theorem resetMeetsHandleInvariant : Obligations.ResetMeetsHandleInvariant :=
  ⟨construct_inv _ _, construct_inv⟩

end Sys2Proof.Machine
end

section
/-! PROOF. Where the register width plays a part (10_state.md R15). A piece that neither reads nor writes it commutes with every change of it; configure is such a piece followed by one write, so it forgets the width it found. -/

namespace Sys2Proof.Machine

/-! ### Pieces that commute with a change of the width -/

/-- The same outcome on a handle of another width. -/
def Flow.setWidth {α : Type} (m : Flow α) (w : Width) : Flow α :=
  match m with
  | .done a s => .done a (s.setWidth w)
  | .stuck s => .stuck (s.setWidth w)

theorem Flow.andThen_andThen {α β γ : Type} (m : Flow α) (k : α → State → Flow β)
    (k' : β → State → Flow γ) : (m.andThen k).andThen k' = m.andThen fun a s => (k a s).andThen k' := by
  cases m <;> rfl

/-- What the piece does is the same at every width, and it leaves the width as it found it. -/
def WidthFree {α : Type} (f : State → Flow α) : Prop :=
  ∀ s w, f (s.setWidth w) = (f s).setWidth w

namespace WidthFree

theorem andThen {α β : Type} {f : State → Flow α} {k : α → State → Flow β} (hf : WidthFree f)
    (hk : ∀ a, WidthFree (k a)) : WidthFree fun s => (f s).andThen k := by
  intro s w
  simp only [hf s w]
  cases f s with
  | done a t => exact hk a t w
  | stuck t => rfl

theorem giving {α β : Type} {f : State → Flow α} (hf : WidthFree f) (g : α → β) :
    WidthFree fun s => (f s).giving g :=
  hf.andThen fun _ _ _ => rfl

/-- The width is the one the piece found: change it to itself. -/
theorem ends {α : Type} {f : State → Flow α} (hf : WidthFree f) (s : State) :
    (f s).Ends (fun _ t => t.width = s.width) fun t => t.width = s.width := by
  have hself : f s = (f s).setWidth s.width := hf s s.width
  rw [hself]
  cases f s with
  | done a t => rfl
  | stuck t => rfl

theorem finish_width {f : State → Flow Result} (hf : WidthFree f) (s : State) :
    (f s).finish.width = s.width := by
  have hends := hf.ends s
  cases hfs : f s with
  | done r t => simpa [hfs] using hends
  | stuck t => simpa [hfs] using hends

theorem finish_setWidth {f : State → Flow Result} (hf : WidthFree f) (s : State) (w : Width) :
    (f (s.setWidth w)).finish = (f s).finish.setWidth w := by
  rw [hf]
  cases f s with
  | done r t => rfl
  | stuck t => rfl

end WidthFree

/-! ### The shared operations -/

theorem xfer_widthFree (o : Byte) : WidthFree (xfer o) := by
  intro s w
  cases h : s.replyAt 0 with
  | some b => rw [xfer_done o h, xfer_done o (s := s.setWidth w) h]; rfl
  | none => rw [xfer_stuck o h, xfer_stuck o (s := s.setWidth w) h]; rfl

theorem xfers_widthFree (os : List Byte) : WidthFree (xfers os) := by
  induction os with
  | nil => exact fun _ _ => rfl
  | cons o os ih => exact (xfer_widthFree o).andThen fun _ => ih.giving _

theorem frame_widthFree (w : List Byte) (n : Nat) : WidthFree (frame w n) := by
  have hbody : WidthFree fun s => (xfers w s).andThen fun _ s =>
      (xfers (zeros n) s).andThen fun r s => .done r (closeFrame s) :=
    (xfers_widthFree w).andThen fun _ => (xfers_widthFree _).andThen fun _ _ _ => rfl
  exact fun s => hbody (openFrame s)

theorem txn_widthFree (wbuf : Option (List Byte)) (rbuf : Option Nat) : WidthFree (txn wbuf rbuf) := by
  cases wbuf with
  | none => cases rbuf <;> exact fun _ _ => rfl
  | some w =>
    cases rbuf with
    | none => exact fun _ _ => rfl
    | some n => exact (frame_widthFree w n).giving _

theorem memRead_widthFree (r : Reg) (n : Nat) : WidthFree (memRead r n) :=
  (txn_widthFree _ _).giving _

theorem memWrite_widthFree (r : Reg) (n : Nat) (bytes : List Byte) : WidthFree (memWrite r n bytes) :=
  (txn_widthFree _ _).giving _

theorem cmd_widthFree (c : Byte) : WidthFree (cmd c) :=
  (txn_widthFree _ _).giving _

theorem readByte_widthFree (r : Reg) : WidthFree (readByte r) :=
  (memRead_widthFree r 1).giving _

/-- enable and disable, with what they make of the MDR1 byte (45_config.md R92, R93). -/
theorem readModifyWrite_widthFree (f : Byte → Byte) :
    WidthFree fun s => (readMode1 s).andThen fun v t => (writeMode1 (f v) t).giving fun _ => () :=
  (readByte_widthFree _).andThen fun _ => (memWrite_widthFree _ _ _).giving _

theorem endHandle_widthFree : WidthFree endHandle :=
  (cmd_widthFree _).andThen fun _ => (readModifyWrite_widthFree countingDisabled).andThen fun _ _ _ => rfl

/-! ### configure -/

/-- The two frames of configure, before it stores the width (45_config.md R91). -/
def configureFrames (m0 m1 : Byte) (s : State) : Flow Bool :=
  (writeMode0 m0 s).andThen fun _ t => writeMode1 m1 t

theorem configureFrames_widthFree (m0 m1 : Byte) : WidthFree (configureFrames m0 m1) :=
  (memWrite_widthFree _ _ _).andThen fun _ => memWrite_widthFree _ _ _

theorem configureFrames_framed (m0 m1 : Byte) {s : State} (h : s.Ready) :
    (configureFrames m0 m1 s).Framed s (· = true) :=
  (memWrite_framed h _ _ _).andThen fun _ _ _ ht => memWrite_framed ht _ _ _

theorem configure_andThen {β : Type} (m0 m1 : Byte) (s : State) (k : Unit → State → Flow β) :
    (configure m0 m1 s).andThen k
      = (configureFrames m0 m1 s).andThen fun _ t => k () (t.setWidth (widthOf m1)) := by
  unfold configure configureFrames
  cases writeMode0 m0 s with
  | stuck t => rfl
  | done a t =>
    simp only [Flow.andThen_done]
    cases writeMode1 m1 t <;> rfl

/-- What defaultConfiguration does after its configure, at a given length of the data register's frame
(45_config.md R94). -/
def defaultTail (n : Nat) (s : State) : Flow Unit :=
  (memWrite .dtr n (dataBuffer 0 0 0 0) s).andThen fun _ s =>
    (clearCounter s).andThen fun _ s => (loadCounterFromData s).andThen fun _ s => enable s

theorem defaultTail_widthFree (n : Nat) : WidthFree (defaultTail n) :=
  (memWrite_widthFree _ _ _).andThen fun _ => (cmd_widthFree _).andThen fun _ =>
    (cmd_widthFree _).andThen fun _ => readModifyWrite_widthFree countingEnabled

theorem bodyOf_configure (m0 m1 : Byte) (s : State) :
    bodyOf (.configure m0 m1) s
      = (configureFrames m0 m1 s).andThen fun _ t => .done .noValue (t.setWidth (widthOf m1)) :=
  configure_andThen m0 m1 s fun _ t => Flow.done Result.noValue t

/-- The data register's frame has the length of the width that configure has just stored. -/
theorem bodyOf_defaultConfiguration (s : State) :
    bodyOf .defaultConfiguration s
      = (configureFrames Config.defaultMdr0 Config.defaultMdr1 s).andThen fun _ t =>
          (defaultTail 4 (t.setWidth 4)).giving fun _ => .noValue := by
  have hwidth : widthOf Config.defaultMdr1 = 4 := by decide
  change ((configure _ _ s).andThen _).giving _ = _
  rw [Flow.giving, Flow.andThen_andThen, configure_andThen, hwidth]
  rfl

/-- Whatever follows configure's write of the width is the same from every width. -/
theorem configureFrames_finish_setWidth (m0 m1 : Byte) (v : Width) (k : State → Flow Result)
    (s : State) (w : Width) :
    ∃ w', ((configureFrames m0 m1 (s.setWidth w)).andThen fun _ t => k (t.setWidth v)).finish
      = ((configureFrames m0 m1 s).andThen fun _ t => k (t.setWidth v)).finish.setWidth w' := by
  rw [configureFrames_widthFree]
  cases configureFrames m0 m1 s with
  | done a t => exact ⟨(k (t.setWidth v)).finish.width, rfl⟩
  | stuck t => exact ⟨w, rfl⟩

/-! ### Every operation -/

/-- The operations that neither read nor write the width. -/
theorem bodyOf_widthFree {i : Instr} (hr : readsWidth i = false) (hc : ∀ m0 m1, i ≠ .configure m0 m1)
    (hd : i ≠ .defaultConfiguration) : WidthFree (bodyOf i) := by
  cases i with
  | transfer => exact (txn_widthFree _ _).giving _
  | writeMode0 | writeMode1 | clearMode0 | clearMode1 => exact (memWrite_widthFree _ _ _).giving _
  | loadCounterFromData | loadOutputFromCounter | clearCounter | clearStatus =>
    exact (cmd_widthFree _).giving _
  | readMode0 | readMode1 | readStatus => exact (readByte_widthFree _).giving _
  | enable => exact (readModifyWrite_widthFree countingEnabled).giving _
  | disable => exact (readModifyWrite_widthFree countingDisabled).giving _
  | beginOp => exact fun _ _ => rfl
  | endOp => exact endHandle_widthFree.giving _
  | configure m0 m1 => exact absurd rfl (hc m0 m1)
  | defaultConfiguration => exact absurd rfl hd
  | writeDataRegister | readOutputRegister | readCounter | readDataRegister => cases hr

/-- The readers keep the width: each is a frame whose length the width gives. -/
theorem bodyOf_finish_width_of_reads {i : Instr} (hr : readsWidth i = true) (s : State) :
    (bodyOf i s).finish.width = s.width := by
  cases i with
  | writeDataRegister b0 b1 b2 b3 =>
    exact ((memWrite_widthFree .dtr s.width.val (dataBuffer b0 b1 b2 b3)).giving .ok).finish_width s
  | readCounter => exact (((memRead_widthFree .cntr s.width.val).giving assemble).giving .u32).finish_width s
  | readOutputRegister =>
    exact ((((memRead_widthFree .otr s.width.val).giving assemble).giving toSigned32).giving .i32).finish_width s
  | readDataRegister =>
    exact ((((memRead_widthFree .dtr s.width.val).giving assemble).giving toSigned32).giving .i32).finish_width s
  | _ => cases hr

theorem bodyOf_finish_width {i : Instr} (hc : ∀ m0 m1, i ≠ .configure m0 m1)
    (hd : i ≠ .defaultConfiguration) (s : State) : (bodyOf i s).finish.width = s.width := by
  cases hr : readsWidth i with
  | true => exact bodyOf_finish_width_of_reads hr s
  | false => exact (bodyOf_widthFree hr hc hd).finish_width s

/-- configure leaves the width alone where it is stuck, and stores its own where it completes. -/
theorem bodyOf_configure_finish_width (m0 m1 : Byte) {s : State} (h : s.Ready) :
    let t := (bodyOf (.configure m0 m1) s).finish
    t.width = s.width ∨ (t.inTxn = false ∧ t.width = widthOf m1) := by
  have hkept := (configureFrames_widthFree m0 m1).ends s
  have hframed := configureFrames_framed m0 m1 h
  rw [bodyOf_configure]
  cases hcf : configureFrames m0 m1 s with
  | done a t =>
    rw [hcf] at hframed
    obtain ⟨-, -, ht⟩ := hframed
    exact .inr ⟨ht.2, rfl⟩
  | stuck t =>
    rw [hcf] at hkept
    exact .inl hkept

theorem bodyOf_defaultConfiguration_finish_width (s : State) :
    let t := (bodyOf .defaultConfiguration s).finish
    t.width = s.width ∨ t.width = 4 := by
  have hkept := (configureFrames_widthFree Config.defaultMdr0 Config.defaultMdr1).ends s
  rw [bodyOf_defaultConfiguration]
  cases hcf : configureFrames Config.defaultMdr0 Config.defaultMdr1 s with
  | done a t => exact .inr (((defaultTail_widthFree 4).giving _).finish_width (t.setWidth 4))
  | stuck t =>
    rw [hcf] at hkept
    exact .inl hkept

/-- An operation that reads no width leaves the same state but for the width, whichever width it finds. -/
theorem bodyOf_finish_setWidth {i : Instr} (hr : readsWidth i = false) (s : State) (w : Width) :
    ∃ w', (bodyOf i (s.setWidth w)).finish = (bodyOf i s).finish.setWidth w' := by
  by_cases hc : ∃ m0 m1, i = .configure m0 m1
  · obtain ⟨m0, m1, rfl⟩ := hc
    rw [bodyOf_configure, bodyOf_configure]
    exact configureFrames_finish_setWidth m0 m1 (widthOf m1) (.done .noValue ·) s w
  · by_cases hd : i = .defaultConfiguration
    · subst hd
      rw [bodyOf_defaultConfiguration, bodyOf_defaultConfiguration]
      exact configureFrames_finish_setWidth _ _ 4 (fun t => (defaultTail 4 t).giving fun _ => .noValue) s w
    · push Not at hc
      exact ⟨w, (bodyOf_widthFree hr hc hd).finish_setWidth s w⟩

/-- A stuck handle answers its own state to every operation of its phase. -/
theorem exec_of_stuck {i : Instr} {s : State} (hw : i.wellFormed = true) (hp : s.phase = phaseOf i)
    (hi : s.inTxn = true) : exec i s = .next s := by
  rw [exec_eq, if_pos hw, admittedIn_stuck hp hi]

/-! ### O21, O22 -/

/-- Settles O21: every body but those of the two writers leaves the width as it found it, and each writer stores one
width of its own, after configure's frames. -/
theorem onlyConfigureWritesWidth : Obligations.OnlyConfigureWritesWidth := by
  intro i s t h
  obtain ⟨-, hp, ⟨-, rfl⟩ | ⟨hi, rfl⟩⟩ := exec_next h
  · exact ⟨fun _ _ => rfl, fun _ _ _ => .inl rfl, fun _ => .inl rfl⟩
  · refine ⟨fun hc hd => bodyOf_finish_width hc hd s, ?_, ?_⟩
    · rintro m0 m1 rfl
      exact bodyOf_configure_finish_width m0 m1 ⟨hp, hi⟩
    · rintro rfl
      exact bodyOf_defaultConfiguration_finish_width s

/-- Settles O22: admission looks at the phase and the open frame only, and the body leaves states that differ in the
width only. -/
theorem onlyMultiByteOperationsReadWidth : Obligations.OnlyMultiByteOperationsReadWidth := by
  intro i s t w hr h
  obtain ⟨hw, hp, ⟨hi, rfl⟩ | ⟨hi, rfl⟩⟩ := exec_next h
  · exact ⟨t.setWidth w, exec_of_stuck (s := t.setWidth w) hw hp hi, rfl⟩
  · obtain ⟨w', hw'⟩ := bodyOf_finish_setWidth hr s w
    refine ⟨_, exec_runs (s := s.setWidth w) hw hp hi, ?_⟩
    rw [hw']
    rfl

end Sys2Proof.Machine
end

section
/-! PROOF. REFDEV's side of a frame (20_memory.md R47 to R49): what it answers to a read, what the frames of the block's own operations do to it, and O53 and O54. With them O8, the order of bits on the wire (R35). -/

namespace Sys2Proof.Machine

/-- Settles O8: the constant settings say most significant bit first (00_scope.md R7). -/
theorem wireIsMostSignificantFirst : Obligations.WireIsMostSignificantFirst := by
  intro b
  simp [wireBits, Config.settings, List.range_succ]

/-! ### The bytes of a register -/

theorem registerBytes_succ (v : Word) (n : Nat) :
    registerBytes v (n + 1) = (v >>> (8 * n)).setWidth 8 :: registerBytes v n := by
  simp [registerBytes, List.range_succ_eq_map, Function.comp_def, Nat.sub_sub, Nat.add_comm 1]

theorem getElem?_registerBytes (v : Word) {n i : Nat} (h : i < n) :
    (registerBytes v n)[i]? = some ((v >>> (8 * (n - 1 - i))).setWidth 8) := by
  simp [registerBytes, h]

/-- The low `n` bytes of a register, read big-endian, are its value modulo `256 ^ n`. -/
theorem frameNumber_registerBytes (v : Word) (n : Nat) : frameNumber (registerBytes v n) = v.toNat % 256 ^ n := by
  induction n with
  | zero => simp [registerBytes, frameNumber, Nat.mod_one]
  | succ n ih =>
    have htop : ((v >>> (8 * n)).setWidth 8).toNat = v.toNat / 256 ^ n % 256 := by
      simp [Nat.shiftRight_eq_div_pow, Nat.pow_mul]
    rw [registerBytes_succ, frameNumber, ih, htop, registerBytes_length, Nat.mod_pow_succ]
    ring

theorem toNat_assemble_registerBytes (v : Word) {n : Nat} (h : n ≤ 4) :
    (assemble (registerBytes v n)).toNat = v.toNat % 256 ^ n := by
  rw [toNat_assemble_of_length_le (by rwa [registerBytes_length]), frameNumber_registerBytes]

/-- A register that holds an assembled value gives it back. -/
theorem assemble_registerBytes_assemble {bs : List Byte} (h : bs.length ≤ 4) :
    assemble (registerBytes (assemble bs) bs.length) = assemble bs := by
  apply BitVec.eq_of_toNat_eq
  rw [toNat_assemble_registerBytes _ h, Nat.mod_eq_of_lt (toNat_assemble_lt h)]

/-! ### Reads -/

/-- What REFDEV answers to the dummy bytes of a read of a register (20_memory.md R49). -/
def RefDev.readBytes (d : RefDev) : Reg → List Byte
  | .mdr0 => [d.m0]
  | .mdr1 => [d.m1]
  | .str => [d.str]
  | .cntr => registerBytes d.cntr d.devW.val
  | .dtr => registerBytes d.dtr d.devW.val
  | .otr => registerBytes d.otr d.devW.val

/-- The frame of a read that REFDEV answers. -/
def RefDev.readFrame (d : RefDev) (r : Reg) : List Byte :=
  commandByte .read r :: zeros (d.readBytes r).length

theorem drives_readFrame (d : RefDev) (r : Reg) : d.drives (d.readFrame r) = none :: (d.readBytes r).map some := by
  cases r <;> simp [RefDev.readFrame, RefDev.drives, RefDev.readBytes, commandByte, Action.code, Reg.code, zeros,
    Config.dummyByte, registerBytes_length]

/-- The byte received with the command is open in either phase. -/
theorem answer_readFrame (d : RefDev) (r : Reg) :
    d.answer 1 (d.readFrame r) = none :: (d.readBytes r).map some := by
  refine List.ext_getElem? fun k => ?_
  rw [answer_getElem?, drives_readFrame]
  cases k <;> simp [Function.comp_def]

theorem agrees_map_some (ps bs : List Byte) : agrees (ps.map some) bs = true ↔ bs = ps := by
  induction ps generalizing bs with
  | nil => cases bs <;> simp [agrees]
  | cons p ps ih => cases bs <;> simp [agrees, ih, @eq_comm _ p]

/-- What is captured in a read that REFDEV answers is the register. -/
theorem captured_eq_readBytes {d : RefDev} {r : Reg} {x : Byte} {rs : List Byte}
    (h : agrees (d.answer 1 (d.readFrame r)) (x :: rs) = true) : rs = d.readBytes r := by
  rw [answer_readFrame] at h
  exact (agrees_map_some _ _).1 h

/-- Settles O54: a position behind the command byte is driven with the register's byte. -/
theorem deviceAnswersBigEndian : Obligations.DeviceAnswersBigEndian := by
  intro d i hi
  have hpos : ∀ (r : Reg) (v : Word), d.readBytes r = registerBytes v d.devW.val →
      (d.answer 1 (commandByte .read r :: zeros d.devW.val))[1 + i]? =
        some (some ((v >>> (8 * (d.devW.val - 1 - i))).setWidth 8)) := by
    intro r v hv
    have hframe : commandByte .read r :: zeros d.devW.val = d.readFrame r := by
      rw [RefDev.readFrame, hv, registerBytes_length]
    rw [hframe, answer_readFrame, hv, Nat.add_comm, List.getElem?_cons_succ, List.getElem?_map,
      getElem?_registerBytes v hi]
    rfl
  exact ⟨hpos .cntr d.cntr rfl, hpos .dtr d.dtr rfl, hpos .otr d.otr rfl⟩

/-- Settles O53: the prediction has a place for every byte sent, and those of the write phase are blanked. -/
theorem discardedBytesUnconstrained : Obligations.DiscardedBytesUnconstrained := by
  have hopen : ∀ (d : RefDev) (written : Nat) (sent : List Byte) (k : Nat), k < sent.length → k < written →
      (d.answer written sent)[k]? = some none := by
    intro d written sent k hk hw
    have hlen : k < (d.drives sent).length := by rwa [drives_length]
    simp [answer_getElem?, hlen, hw]
  refine ⟨hopen, fun d w received hlen => ?_, fun d => ⟨answer_readFrame d .mdr0, answer_readFrame d .mdr1,
    answer_readFrame d .str⟩⟩
  refine (agrees_iff _ _).2 ⟨by rw [answer_length, hlen], fun k p hp => ?_⟩
  have hk : k < w.length := by
    obtain ⟨hlt, -⟩ := List.getElem?_eq_some_iff.1 hp
    rwa [answer_length] at hlt
  simp [hopen d w.length w k hk hk] at hp

/-! ### What a frame does to REFDEV (20_memory.md R48) -/

theorem onFrame_readFrame (d : RefDev) (r : Reg) : d.onFrame (d.readFrame r) = some d := by
  cases r <;> simp [RefDev.readFrame, RefDev.onFrame, RefDev.readBytes, commandByte, Action.code, Reg.code, zeros,
    Config.dummyByte, registerBytes_length]

theorem onFrame_writeMdr0 (d : RefDev) (x : Byte) :
    d.onFrame [commandByte .write .mdr0, x] = some { d with m0 := x } := rfl

theorem onFrame_writeMdr1 (d : RefDev) (x : Byte) :
    d.onFrame [commandByte .write .mdr1, x] = some { d with m1 := x } := rfl

theorem onFrame_writeDtr (d : RefDev) {p : List Byte} (h : p.length = d.devW.val) :
    d.onFrame (commandByte .write .dtr :: p) = some { d with dtr := assemble p } := by
  simp [RefDev.onFrame, commandByte, Action.code, Reg.code, h]

theorem onFrame_loadCntr (d : RefDev) : d.onFrame [commandByte .load .cntr] = some { d with cntr := d.dtr } := rfl

/-! ### Frames as they are read from an event list -/

/-- The premise on one frame and those after it, in what was sent and what was received. -/
theorem deviceAgrees_zip (d : RefDev) (written : Nat) {sent received : List Byte} (h : received.length = sent.length)
    (fs : List (Nat × List (Byte × Byte))) :
    deviceAgrees (some d) ((written, sent.zip received) :: fs) = true ↔
      agrees (d.answer written sent) received = true ∧ deviceAgrees (d.onFrame sent) fs = true := by
  rw [deviceAgrees_cons, List.map_fst_zip h.ge, List.map_snd_zip h.le]

theorem deviceAfter_zip (d : RefDev) {sent received : List Byte} (h : received.length = sent.length)
    (fs : List (List (Byte × Byte))) :
    deviceAfter (some d) (sent.zip received :: fs) = deviceAfter (d.onFrame sent) fs := by
  rw [deviceAfter, List.map_fst_zip h.ge]

end Sys2Proof.Machine
end

section
/-! PROOF. Which complete frames an operation that completes has put on the bus, and with REFDEV at the far end (20_memory.md R47 to R49) what follows of its result and of the device: O45, O46, O48 and O49. -/

namespace Sys2Proof.Machine

/-! ### Runs made of complete frames -/

/-- Complete frames, each as its (sent, received) bytes, as `framesOf` reads them. -/
abbrev FrameLog := List (List (Byte × Byte))

/-- `t` comes after `s` with exactly these complete frames, no other event, and these results. -/
structure State.Ran (s : State) (fs : FrameLog) (rs : List Result) (t : State) : Prop where
  results : t.results = s.results ++ rs
  events : ∃ es, t.events = s.events ++ es ∧ ∀ rest, framesOf (es ++ rest) = fs ++ framesOf rest

namespace State.Ran
variable {s t u : State} {fs gs : FrameLog} {rs qs : List Result}

theorem trans (h : s.Ran fs rs t) (h' : t.Ran gs qs u) : s.Ran (fs ++ gs) (rs ++ qs) u where
  results := by rw [h'.results, h.results, List.append_assoc]
  events := by
    obtain ⟨es, hes, hfs⟩ := h.events
    obtain ⟨es', hes', hgs⟩ := h'.events
    exact ⟨es ++ es', by rw [hes', hes, List.append_assoc],
      fun rest => by rw [List.append_assoc, hfs, hgs, List.append_assoc]⟩

theorem framesOf_drop (h : s.Ran fs rs t) : framesOf (t.events.drop s.events.length) = fs := by
  obtain ⟨es, hes, hfs⟩ := h.events
  simpa [hes, framesOf, framesFrom] using hfs []

/-- The result is observed when the frames are complete. -/
theorem observe (h : s.Ran fs [] t) (r : Result) : s.Ran fs [r] { t with results := t.results ++ [r] } :=
  ⟨congrArg (· ++ [r]) (h.results.trans (List.append_nil _)), h.events⟩

theorem afterFrame (s : State) (sent received : List Byte) (n : Nat) :
    s.Ran [sent.zip received] [] (s.afterFrame (frameEvents s.csLine s.settings sent received) n) :=
  ⟨(List.append_nil _).symm, _, rfl, framesOf_frameEvents s.csLine s.settings sent received⟩

end State.Ran

/-- A piece that is stuck in a frame or completes, and then with a value and complete frames of which `P` holds and with
no result yet. -/
def Flow.Sends {α : Type} (m : Flow α) (s : State) (P : α → FrameLog → Prop) : Prop :=
  m.Ends (fun a t => ∃ fs, P a fs ∧ s.Ran fs [] t) fun t => t.inTxn = true

namespace Flow.Sends
variable {α β : Type} {m : Flow α} {s : State} {P : α → FrameLog → Prop}

theorem mono {Q : α → FrameLog → Prop} (h : m.Sends s P) (hPQ : ∀ a fs, P a fs → Q a fs) :
    m.Sends s Q :=
  Flow.ends_mono h (fun a _ ⟨fs, hP, hrun⟩ => ⟨fs, hPQ a fs hP, hrun⟩) fun _ ht => ht

theorem giving {f : α → β} {Q : β → FrameLog → Prop} (h : m.Sends s P)
    (hPQ : ∀ a fs, P a fs → Q (f a) fs) : (m.giving f).Sends s Q :=
  Flow.ends_giving (h.mono hPQ)

/-- A success bit that is observed as the result. -/
theorem giving_ok {m : Flow Bool} {Q : FrameLog → Prop}
    (h : m.Sends s fun ok fs => ok = true ∧ Q fs) :
    (m.giving Result.ok).Sends s fun r fs => r = .ok true ∧ Q fs :=
  h.giving fun _ _ ⟨hok, hQ⟩ => ⟨congrArg Result.ok hok, hQ⟩

/-- The frames of the second piece follow those of the first. -/
theorem andThen {k : α → State → Flow β} {Q : β → FrameLog → Prop} (h : m.Sends s P)
    (hk : ∀ a fs t, P a fs → (k a t).Sends t fun b gs => Q b (fs ++ gs)) : (m.andThen k).Sends s Q :=
  Flow.ends_andThen h fun a t ⟨fs, hP, hrun⟩ =>
    Flow.ends_mono (hk a fs t hP) (fun _ _ ⟨gs, hQ, hrun'⟩ => ⟨fs ++ gs, hQ, hrun.trans hrun'⟩) fun _ hu => hu

end Flow.Sends

/-- One frame with these sent bytes, one byte received for each. -/
def IsFrame (sent : List Byte) (fs : FrameLog) : Prop :=
  ∃ received : List Byte, received.length = sent.length ∧ fs = [sent.zip received]

theorem cmd_sends (c : Byte) (s : State) : (cmd c s).Sends s fun ok fs => ok = true ∧ IsFrame [c] fs :=
  cmd_ends (fun bs h => ⟨_, ⟨rfl, bs, State.repliesFrom_length h, rfl⟩, .afterFrame s ..⟩) fun _ _ _ _ _ => rfl

theorem memWrite_sends (r : Reg) (n : Nat) (bytes : List Byte) (s : State) :
    (memWrite r n bytes s).Sends s fun ok fs => ok = true ∧ IsFrame (commandByte .write r :: bytes.take n) fs :=
  memWrite_ends (fun bs h => ⟨_, ⟨rfl, bs, State.repliesFrom_length h, rfl⟩, .afterFrame s ..⟩) fun _ _ _ _ _ => rfl

/-- A read of `n` bytes of a register that captures `rs`. -/
def IsReadFrame (r : Reg) (n : Nat) (rs : List Byte) (fs : FrameLog) : Prop :=
  rs.length = n ∧ ∃ x, fs = [(commandByte .read r :: zeros n).zip (x :: rs)]

/-- A piece that is one read, and makes `f` of the bytes captured. -/
def Flow.Reads {α : Type} (m : Flow α) (s : State) (r : Reg) (n : Nat) (f : List Byte → α) : Prop :=
  m.Sends s fun a fs => ∃ rs, a = f rs ∧ IsReadFrame r n rs fs

theorem Flow.Reads.giving {α β : Type} {m : Flow α} {s : State} {r : Reg} {n : Nat} {f : List Byte → α}
    (h : m.Reads s r n f) (g : α → β) : (m.giving g).Reads s r n (g ∘ f) :=
  Flow.Sends.giving h fun _ _ ⟨rs, ha, hrs⟩ => ⟨rs, congrArg g ha, hrs⟩

theorem memRead_reads (r : Reg) (n : Nat) (s : State) : (memRead r n s).Reads s r n id :=
  memRead_ends (fun x rs _ hlen => ⟨_, ⟨rs, rfl, hlen, x, rfl⟩, .afterFrame s ..⟩) fun _ _ _ _ _ => rfl

theorem readByte_reads (r : Reg) (s : State) : (readByte r s).Reads s r 1 firstByte :=
  (memRead_reads r 1 s).giving firstByte

theorem readWide_reads (r : Reg) (s : State) : (readWide r s).Reads s r s.width.val assemble :=
  (memRead_reads r s.width.val s).giving assemble

/-- The frames of enable and disable: what is made of the MDR1 byte captured is written back (45_config.md R92, R93). -/
def IsReadModifyWrite (f : Byte → Byte) (fs : FrameLog) : Prop :=
  ∃ rs f1 f2, fs = f1 ++ f2 ∧ IsReadFrame .mdr1 1 rs f1 ∧ IsFrame [commandByte .write .mdr1, f (firstByte rs)] f2

theorem readModifyWrite_sends (f : Byte → Byte) (s : State) :
    ((readMode1 s).andThen fun v t => (writeMode1 (f v) t).giving fun _ => ()).Sends s fun _ fs =>
      IsReadModifyWrite f fs :=
  (readByte_reads .mdr1 s).andThen fun _ f1 t ⟨rs, hv, h1⟩ =>
    (memWrite_sends .mdr1 1 [f _] t).giving fun _ f2 h2 => ⟨rs, f1, f2, rfl, h1, hv ▸ h2.2⟩

theorem configureFrames_sends (m0 m1 : Byte) (s : State) :
    (configureFrames m0 m1 s).Sends s fun _ fs =>
      ∃ f1 f2, fs = f1 ++ f2 ∧ IsFrame [commandByte .write .mdr0, m0] f1 ∧
        IsFrame [commandByte .write .mdr1, m1] f2 :=
  (memWrite_sends .mdr0 1 [m0] s).andThen fun _ f1 t h1 =>
    (memWrite_sends .mdr1 1 [m1] t).mono fun _ f2 h2 => ⟨f1, f2, rfl, h1.2, h2.2⟩

/-- An operation that completes on a handle that is not stuck: where its body ends, its result is observed. -/
theorem exec_completes {i : Instr} {s t : State} {D : Result → State → Prop} (h : exec i s = .next t)
    (hs : s.inTxn = false) (ht : t.inTxn = false) (hbody : (bodyOf i s).Ends D fun u => u.inTxn = true) :
    ∃ r u, D r u ∧ t = { u with results := u.results ++ [r] } := by
  obtain ⟨-, -, ⟨hi, -⟩ | ⟨-, rfl⟩⟩ := exec_next h
  · simp [hs] at hi
  · cases hb : bodyOf i s with
    | done r u =>
      rw [hb] at hbody
      exact ⟨r, u, hbody, rfl⟩
    | stuck u =>
      rw [hb] at hbody ht
      exact absurd (ht.symm.trans hbody) (by decide)

/-- Its frames are those of its body. -/
theorem exec_ran {i : Instr} {s t : State} {P : Result → FrameLog → Prop} (h : exec i s = .next t)
    (hs : s.inTxn = false) (ht : t.inTxn = false) (hbody : (bodyOf i s).Sends s P) :
    ∃ r fs, P r fs ∧ s.Ran fs [r] t := by
  obtain ⟨r, u, ⟨fs, hP, hrun⟩, rfl⟩ := exec_completes h hs ht hbody
  exact ⟨r, fs, hP, hrun.observe r⟩

/-- A handle that is not stuck after an operation was not stuck before it (40_framing.md R72). -/
theorem not_inTxn_of_exec {i : Instr} {s t : State} (h : exec i s = .next t) (ht : t.inTxn = false) :
    s.inTxn = false := by
  obtain ⟨-, -, ⟨-, rfl⟩ | ⟨hs, -⟩⟩ := exec_next h
  · exact ht
  · exact hs

/-! ### Frames with REFDEV at the far end -/

/-- The premise on a read that REFDEV answers: the register is captured, and the device is as it was. -/
theorem IsReadFrame.captured {d : RefDev} {r : Reg} {n : Nat} {rs : List Byte} {fs : FrameLog}
    (h : IsReadFrame r n rs fs) (hn : n = (d.readBytes r).length) {ns : List Nat} {gs : FrameLog}
    (hd : deviceAgrees (some d) ((1 :: ns).zip (fs ++ gs)) = true) :
    rs = d.readBytes r ∧ deviceAgrees (some d) (ns.zip gs) = true := by
  subst hn
  obtain ⟨hlen, x, rfl⟩ := h
  obtain ⟨hagrees, hrest⟩ := (deviceAgrees_zip d 1 (sent := d.readFrame r) (received := x :: rs)
    (by simp [RefDev.readFrame, zeros_length, hlen]) _).1 hd
  exact ⟨captured_eq_readBytes hagrees, by rwa [onFrame_readFrame] at hrest⟩

theorem IsReadFrame.deviceAfter_append {d : RefDev} {r : Reg} {n : Nat} {rs : List Byte} {fs : FrameLog}
    (h : IsReadFrame r n rs fs) (hn : n = (d.readBytes r).length) (gs : FrameLog) :
    deviceAfter (some d) (fs ++ gs) = deviceAfter (some d) gs := by
  subst hn
  obtain ⟨hlen, x, rfl⟩ := h
  have hafter := deviceAfter_zip d (sent := d.readFrame r) (received := x :: rs)
    (by simp [RefDev.readFrame, zeros_length, hlen]) gs
  rwa [onFrame_readFrame] at hafter

/-- The premise after a frame that is not read: the device moves on by it. -/
theorem IsFrame.deviceAgrees_append {d d' : RefDev} {sent : List Byte} {fs : FrameLog} (h : IsFrame sent fs)
    (hd' : d.onFrame sent = some d') {n : Nat} {ns : List Nat} {gs : FrameLog}
    (hd : deviceAgrees (some d) ((n :: ns).zip (fs ++ gs)) = true) : deviceAgrees (some d') (ns.zip gs) = true := by
  obtain ⟨bs, hlen, rfl⟩ := h
  exact hd' ▸ ((deviceAgrees_zip d n hlen _).1 hd).2

theorem IsFrame.deviceAfter_append {d d' : RefDev} {sent : List Byte} {fs : FrameLog} (h : IsFrame sent fs)
    (hd' : d.onFrame sent = some d') (gs : FrameLog) :
    deviceAfter (some d) (fs ++ gs) = deviceAfter (some d') gs := by
  obtain ⟨bs, hlen, rfl⟩ := h
  exact (deviceAfter_zip d hlen gs).trans (by rw [hd'])

theorem IsFrame.deviceAfter_eq {d d' : RefDev} {sent : List Byte} {fs : FrameLog}
    (h : IsFrame sent fs) (hd' : d.onFrame sent = some d') : deviceAfter (some d) fs = some d' := by
  simpa [deviceAfter] using h.deviceAfter_append hd' []

/-! ### O45 -/

/-- An operation that is one read returns what it makes of the register's bytes. -/
theorem results_of_reads {d : RefDev} {i : Instr} {s t : State} {r : Reg} {n : Nat} {f : List Byte → Result}
    (h : exec i s = .next t) (hs : s.inTxn = false) (ht : t.inTxn = false) (hbody : (bodyOf i s).Reads s r n f)
    (hn : n = (d.readBytes r).length) (hd : answersAsRefDev d [1] (t.events.drop s.events.length)) :
    t.results = s.results ++ [f (d.readBytes r)] := by
  obtain ⟨_, fs, ⟨rs, rfl, hframe⟩, hrun⟩ := exec_ran h hs ht hbody
  rw [answersAsRefDev, hrun.framesOf_drop, ← List.append_nil fs] at hd
  rw [hrun.results, (hframe.captured hn hd).1]

/-- Settles O45: the bytes captured are those of the register, and assembling them gives its low bytes. -/
theorem readsReturnDeviceRegisters : Obligations.ReadsReturnDeviceRegisters := by
  intro d i s t hready hw hexec ht hd
  have hlen : ∀ v : Word, s.width.val = (registerBytes v d.devW.val).length := fun v => by
    rw [registerBytes_length, hw]
  have hvalue : ∀ v : Word, (assemble (registerBytes v d.devW.val)).toNat = v.toNat % 256 ^ s.width.val := fun v => by
    rw [hw, toNat_assemble_registerBytes v (by omega)]
  refine ⟨?_, ?_, ?_, ?_, ?_, ?_⟩ <;> rintro rfl
  · exact results_of_reads hexec hready.2 ht ((readByte_reads .mdr0 s).giving Result.u8) rfl hd
  · exact results_of_reads hexec hready.2 ht ((readByte_reads .mdr1 s).giving Result.u8) rfl hd
  · exact results_of_reads hexec hready.2 ht ((readByte_reads .str s).giving Result.u8) rfl hd
  · exact ⟨_, results_of_reads hexec hready.2 ht ((readWide_reads .cntr s).giving Result.u32) (hlen _) hd, hvalue _⟩
  · exact ⟨_, results_of_reads hexec hready.2 ht (((readWide_reads .dtr s).giving toSigned32).giving Result.i32)
      (hlen _) hd, hvalue _⟩
  · exact ⟨_, results_of_reads hexec hready.2 ht (((readWide_reads .otr s).giving toSigned32).giving Result.i32)
      (hlen _) hd, hvalue _⟩

/-! ### O46 -/

/-- Settles O46: DTR holds the assembled value, the load copies it to CNTR, and its bytes are read back. -/
theorem counterRoundTrip : Obligations.CounterRoundTrip := by
  intro d b0 b1 b2 b3 s t1 t2 t3 hready hw h1 h2 h3 ht3 hd
  have ht2 : t2.inTxn = false := not_inTxn_of_exec h3 ht3
  have ht1 : t1.inTxn = false := not_inTxn_of_exec h2 ht2
  have hw1 : t1.width = s.width := (onlyConfigureWritesWidth _ s t1 h1).1 (by simp) (by simp)
  have hw12 : t2.width = t1.width := (onlyConfigureWritesWidth _ t1 t2 h2).1 (by simp) (by simp)
  have hw2 : t2.width = d.devW := hw12.trans (hw1.trans hw.symm)
  set p : List Byte := [b0, b1, b2, b3].take s.width.val with hp
  have hplen : p.length = d.devW.val := by
    rw [hp, List.length_take, hw]
    exact min_eq_left (by simp; omega)
  obtain ⟨_, f1, ⟨rfl, hf1⟩, hrun1⟩ := exec_ran h1 hready.2 ht1
    (memWrite_sends .dtr s.width.val (dataBuffer b0 b1 b2 b3) s).giving_ok
  obtain ⟨_, f2, ⟨rfl, hf2⟩, hrun2⟩ := exec_ran h2 ht1 ht2 (cmd_sends (commandByte .load .cntr) t1).giving_ok
  obtain ⟨_, f3, ⟨rs, rfl, hf3⟩, hrun3⟩ := exec_ran h3 ht2 ht3 ((readWide_reads .cntr t2).giving Result.u32)
  have hrun := (hrun1.trans hrun2).trans hrun3
  rw [answersAsRefDev, hrun.framesOf_drop, List.append_assoc f1, ← List.append_nil f3] at hd
  have hdtr := onFrame_writeDtr d hplen
  obtain ⟨hrs, -⟩ := hf3.captured (by rw [hw2]; exact (registerBytes_length _ _).symm)
    (hf2.deviceAgrees_append (onFrame_loadCntr _) (hf1.deviceAgrees_append hdtr hd))
  rw [hrun.results, hrs]
  change _ ++ [_, _, Result.u32 (assemble (registerBytes (assemble p) d.devW.val))] = _
  rw [← hplen, assemble_registerBytes_assemble (by omega)]

/-! ### O48 -/

theorem widthOf_congr {a b : Byte} (h : a &&& 0x03 = b &&& 0x03) : widthOf a = widthOf b := by
  simp only [widthOf, h]

/-- Bit 2 is no bit of the width (45_config.md R90). -/
theorem widthOf_countingEnabled (v : Byte) : widthOf (countingEnabled v) = widthOf v :=
  widthOf_congr (BitVec.and_assoc v _ _)

theorem widthOf_countingDisabled (v : Byte) : widthOf (countingDisabled v) = widthOf v :=
  widthOf_congr (by simp [countingDisabled, Config.enableMask, BitVec.and_or_distrib_right])

/-- An operation that reads MDR1 and writes it back puts `f` of the register into it and leaves the rest. -/
theorem deviceAfter_readModifyWrite {d : RefDev} {i : Instr} {s t : State} {f : Byte → Byte}
    (h : exec i s = .next t) (hs : s.inTxn = false) (ht : t.inTxn = false)
    (hbody : bodyOf i s
      = ((readMode1 s).andThen fun v t => (writeMode1 (f v) t).giving fun _ => ()).giving fun _ => .noValue)
    (hd : answersAsRefDev d [1, 2] (t.events.drop s.events.length)) :
    deviceAfter (some d) (framesOf (t.events.drop s.events.length)) = some { d with m1 := f d.m1 } := by
  have hsends : (bodyOf i s).Sends s fun _ fs => IsReadModifyWrite f fs :=
    hbody ▸ (readModifyWrite_sends f s).giving fun _ _ hfs => hfs
  obtain ⟨_, _, ⟨rs, f1, f2, rfl, hf1, hf2⟩, hrun⟩ := exec_ran h hs ht hsends
  rw [answersAsRefDev, hrun.framesOf_drop] at hd
  obtain ⟨rfl, -⟩ := hf1.captured rfl hd
  rw [hrun.framesOf_drop, hf1.deviceAfter_append rfl]
  exact hf2.deviceAfter_eq (onFrame_writeMdr1 d _)

/-- Settles O48: MDR1 is read as the device has it, and written back with bit 2 changed, which is no bit of the
width. -/
theorem enableDisableOnDevice : Obligations.EnableDisableOnDevice := by
  intro d i s t hready hw hexec ht hd
  have hwidth := (onlyConfigureWritesWidth i s t hexec).1
  constructor <;> rintro rfl
  · have hwt : d.devW = t.width := hw.trans (hwidth (by simp) (by simp)).symm
    exact ⟨deviceAfter_readModifyWrite (f := countingEnabled) hexec hready.2 ht rfl hd,
      (widthOf_countingEnabled d.m1).trans hwt⟩
  · have hwt : d.devW = t.width := hw.trans (hwidth (by simp) (by simp)).symm
    exact ⟨deviceAfter_readModifyWrite (f := countingDisabled) hexec hready.2 ht rfl hd,
      (widthOf_countingDisabled d.m1).trans hwt⟩

/-! ### O49 -/

/-- An operation that is one write of MDR1 leaves the byte written in it. -/
theorem deviceAfter_writeMode1 (d : RefDev) {i : Instr} {s t : State} {x : Byte} (h : exec i s = .next t)
    (hs : s.inTxn = false) (ht : t.inTxn = false) (hbody : bodyOf i s = (writeMode1 x s).giving .ok) :
    deviceAfter (some d) (framesOf (t.events.drop s.events.length)) = some { d with m1 := x } := by
  have hsends : (bodyOf i s).Sends s fun r fs => r = .ok true ∧ IsFrame [commandByte .write .mdr1, x] fs :=
    hbody ▸ (memWrite_sends .mdr1 1 [x] s).giving_ok
  obtain ⟨_, fs, ⟨-, hf⟩, hrun⟩ := exec_ran h hs ht hsends
  rw [hrun.framesOf_drop]
  exact hf.deviceAfter_eq (onFrame_writeMdr1 d x)

/-- configure that completes has sent both its frames and stored the width of the second (45_config.md R91). -/
theorem configure_ran {m0 m1 : Byte} {s t : State} (h : exec (.configure m0 m1) s = .next t)
    (hs : s.inTxn = false) (ht : t.inTxn = false) :
    ∃ f1 f2, IsFrame [commandByte .write .mdr0, m0] f1 ∧ IsFrame [commandByte .write .mdr1, m1] f2 ∧
      s.Ran (f1 ++ f2) [.noValue] t ∧ t.width = widthOf m1 := by
  have hbody : (bodyOf (.configure m0 m1) s).Ends
      (fun r u => r = .noValue ∧ u.width = widthOf m1 ∧
        ∃ f1 f2, IsFrame [commandByte .write .mdr0, m0] f1 ∧ IsFrame [commandByte .write .mdr1, m1] f2 ∧
          s.Ran (f1 ++ f2) [] u) fun u => u.inTxn = true := by
    rw [bodyOf_configure]
    exact Flow.ends_andThen (configureFrames_sends m0 m1 s) fun _ _ ⟨_, ⟨f1, f2, hfs, hf1, hf2⟩, hrun⟩ =>
      ⟨rfl, rfl, f1, f2, hf1, hf2, hfs ▸ ⟨hrun.results, hrun.events⟩⟩
  obtain ⟨_, u, ⟨rfl, hwidth, f1, f2, hf1, hf2, hrun⟩, rfl⟩ := exec_completes h hs ht hbody
  exact ⟨f1, f2, hf1, hf2, hrun.observe _, hwidth⟩

/-- Settles O49: each frame that carries an MDR byte puts it into the device, and only configure makes the block's width
follow. -/
theorem widthAgreement : Obligations.WidthAgreement := by
  intro d i s t hready hexec ht
  have hwidth := (onlyConfigureWritesWidth i s t hexec).1
  refine ⟨?_, ?_, ?_⟩
  · rintro m0 m1 rfl
    obtain ⟨f1, f2, hf1, hf2, hrun, hwt⟩ := configure_ran hexec hready.2 ht
    refine ⟨?_, hwt.symm⟩
    rw [hrun.framesOf_drop, hf1.deviceAfter_append (onFrame_writeMdr0 d m0)]
    exact hf2.deviceAfter_eq (onFrame_writeMdr1 _ m1)
  · rintro rfl
    refine ⟨deviceAfter_writeMode1 d hexec hready.2 ht rfl, ?_⟩
    have h4 : widthOf 0x10 = 4 := by decide
    rw [widthAgrees, hwidth (by simp) (by simp), RefDev.devW, h4, eq_comm]
  · rintro x rfl
    refine ⟨deviceAfter_writeMode1 d hexec hready.2 ht rfl, ?_⟩
    rw [widthAgrees, hwidth (by simp) (by simp), RefDev.devW]

end Sys2Proof.Machine
end

section
/-! PROOF. The pieces of an event list (20_memory.md R39, R40, R44) and what weaving them keeps on a shared bus (40_framing.md R71, 60_exceptions.md R109). -/

namespace Sys2Proof.Machine

/-! ### Pieces -/

/-- What `segments` cuts an event list into. -/
inductive IsPiece : List Event → Prop
  | outside {e : Event} (h : e.selects = false) : IsPiece [e]
  | stalled {acc : List Event} (h : leftOpen acc = true) : IsPiece acc
  | frame {acc : List Event} {e : Event} (h : leftOpen acc = true) (he : e.deselects = true) : IsPiece (acc ++ [e])

theorem leftOpen_iff {acc : List Event} :
    leftOpen acc = true ↔ ∃ e es, acc = e :: es ∧ e.selects = true ∧ ∀ x ∈ es, x.deselects = false := by
  cases acc <;> simp [leftOpen]

theorem leftOpen_singleton (e : Event) : leftOpen [e] = e.selects := by
  simp [leftOpen]

/-- A frame is open for as long as nothing deselects. -/
theorem leftOpen_append {acc : List Event} (h : leftOpen acc = true) (mid : List Event) :
    leftOpen (acc ++ mid) = !mid.any Event.deselects := by
  obtain ⟨e, es, rfl, he, hes⟩ := leftOpen_iff.1 h
  have hnone : es.any Event.deselects = false := by simpa using hes
  simp [leftOpen, he, hnone]

theorem isPiece_of_mem_segmentsFrom {cur : Option (List Event)} (hcur : ∀ acc, cur = some acc → leftOpen acc = true)
    {es p : List Event} (hp : p ∈ segmentsFrom cur es) : IsPiece p := by
  induction es generalizing cur with
  | nil =>
    cases cur with
    | none => simp [segmentsFrom] at hp
    | some acc =>
      obtain rfl : p = acc := by simpa [segmentsFrom] using hp
      exact .stalled (hcur p rfl)
  | cons e es ih =>
    cases cur with
    | none =>
      cases he : e.selects with
      | true => exact ih (cur := some [e]) (by simp [leftOpen_singleton, he]) (by simpa [segmentsFrom, he] using hp)
      | false =>
        obtain rfl | hp : p = [e] ∨ p ∈ segmentsFrom none es := by simpa [segmentsFrom, he] using hp
        · exact .outside he
        · exact ih (cur := none) (by simp) hp
    | some acc =>
      have hacc : leftOpen acc = true := hcur acc rfl
      cases he : e.deselects with
      | true =>
        obtain rfl | hp : p = acc ++ [e] ∨ p ∈ segmentsFrom none es := by simpa [segmentsFrom, he] using hp
        · exact .frame hacc he
        · exact ih (cur := none) (by simp) hp
      | false =>
        exact ih (cur := some (acc ++ [e])) (by simp [leftOpen_append hacc, he])
          (by simpa [segmentsFrom, he] using hp)

theorem isPiece_of_mem_segments {es p : List Event} (hp : p ∈ segments es) : IsPiece p :=
  isPiece_of_mem_segmentsFrom (by simp) hp

theorem flatten_segmentsFrom (cur : Option (List Event)) (es : List Event) :
    (segmentsFrom cur es).flatten = cur.getD [] ++ es := by
  induction es generalizing cur with
  | nil => cases cur <;> simp [segmentsFrom]
  | cons e es ih => cases cur <;> simp only [segmentsFrom] <;> split <;> simp [ih]

theorem flatten_segments (es : List Event) : (segments es).flatten = es :=
  flatten_segmentsFrom none es

/-! ### A complete frame -/

theorem segmentsFrom_some_append {mid : List Event} (h : ∀ e ∈ mid, e.deselects = false) (acc rest : List Event) :
    segmentsFrom (some acc) (mid ++ rest) = segmentsFrom (some (acc ++ mid)) rest := by
  induction mid generalizing acc with
  | nil => simp
  | cons e mid ih =>
    obtain ⟨he, hmid⟩ := List.forall_mem_cons.1 h
    simp [segmentsFrom, he, ih hmid]

theorem deselects_of_mem_byteEvents {sent received : List Byte} {e : Event} (h : e ∈ byteEvents sent received) :
    e.deselects = false := by
  rw [byteEvents, ← List.map_uncurry_zip_eq_zipWith] at h
  obtain ⟨⟨o, i⟩, -, rfl⟩ := List.mem_map.1 h
  rfl

/-- Settles O52: between the two chip-select edges of a frame no event deselects. -/
theorem frameIsOnePiece : Obligations.FrameIsOnePiece := by
  intro line settings sent received rest
  have hmid : ∀ e ∈ Event.txnBegin settings :: byteEvents sent received ++ [.txnEnd], e.deselects = false := by
    simp only [List.cons_append, List.mem_cons, List.mem_append, List.not_mem_nil, or_false]
    rintro e (rfl | he | rfl)
    · rfl
    · exact deselects_of_mem_byteEvents he
    · rfl
  have hframe : frameEvents line settings sent received
      = .cs line .low :: ((Event.txnBegin settings :: byteEvents sent received ++ [.txnEnd]) ++ [.cs line .high]) := by
    simp [frameEvents]
  calc segments (frameEvents line settings sent received ++ rest)
      = segmentsFrom (some [.cs line .low])
          ((Event.txnBegin settings :: byteEvents sent received ++ [.txnEnd]) ++ .cs line .high :: rest) := by
        rw [hframe, List.cons_append, List.append_assoc]
        rfl
    _ = frameEvents line settings sent received :: segments rest := by
        rw [segmentsFrom_some_append hmid, hframe]
        rfl

/-! ### Weaving -/

/-- Whoever selected holds the bus for as long as nothing deselects. -/
theorem exclusiveFrom_leftOpen {acc : List Event} (h : leftOpen acc = true) (k : Nat) (rest : List (Nat × Event)) :
    exclusiveFrom none (acc.map (fun e => (k, e)) ++ rest) = exclusiveFrom (some k) rest := by
  obtain ⟨e, es, rfl, he, hes⟩ := leftOpen_iff.1 h
  have hheld : exclusiveFrom (some k) (es.map (fun e => (k, e)) ++ rest) = exclusiveFrom (some k) rest := by
    clear h
    induction es with
    | nil => rfl
    | cons x es ih =>
      obtain ⟨hx, hes⟩ := List.forall_mem_cons.1 hes
      simp [exclusiveFrom, hx, ih hes]
  simp [exclusiveFrom, he, hheld]

/-- A piece of one handle hands the bus on free, unless it is left open and the log ends there. -/
theorem exclusive_piece_append {p : List Event} (hp : IsPiece p) (k : Nat) {log : List (Nat × Event)}
    (hlog : exclusive log = true) :
    exclusive (p.map (fun e => (k, e)) ++ if leftOpen p then [] else log) = true := by
  cases hp with
  | outside he => simpa [exclusive, exclusiveFrom, leftOpen_singleton, he] using hlog
  | stalled h =>
    rw [if_pos h]
    exact exclusiveFrom_leftOpen h k []
  | @frame acc e h he =>
    have hclosed : leftOpen (acc ++ [e]) = false := by simp [leftOpen_append h, he]
    simpa [exclusive, exclusiveFrom_leftOpen h, hclosed, exclusiveFrom, he] using hlog

theorem exclusive_weave (schedule : List Nat) {streams : List (List (List Event))}
    (h : ∀ ps ∈ streams, ∀ p ∈ ps, IsPiece p) : exclusive (weave schedule streams) = true := by
  induction schedule generalizing streams with
  | nil => rfl
  | cons k schedule ih =>
    rw [weave]
    split
    · rename_i piece rest hk
      obtain ⟨hpiece, hrest⟩ := List.forall_mem_cons.1 (h _ (List.mem_of_getElem? hk))
      refine exclusive_piece_append hpiece k (ih fun ps hps => ?_)
      rcases List.mem_or_eq_of_mem_set hps with hps | rfl
      · exact h ps hps
      · exact hrest
    · exact ih h
    · exact ih h

/-- Settles O50: every stream is made of pieces, and each piece leaves the bus free for the next. -/
theorem wovenFramesAreExclusive : Obligations.WovenFramesAreExclusive := by
  intro schedule logs
  refine exclusive_weave schedule fun ps hps p hp => ?_
  obtain ⟨es, -, rfl⟩ := List.mem_map.1 hps
  exact isPiece_of_mem_segments hp

theorem eventsOf_append (h : Nat) (log log' : List (Nat × Event)) :
    eventsOf h (log ++ log') = eventsOf h log ++ eventsOf h log' := by
  simp [eventsOf]

theorem eventsOf_piece (h k : Nat) (p : List Event) :
    eventsOf h (p.map fun e => (k, e)) = if k = h then p else [] := by
  split <;> simp_all [eventsOf, List.filter_map, Function.comp_def]

/-- What the bus shows of a handle is a beginning of what that handle's stream holds. -/
theorem eventsOf_weave_isPrefix (schedule : List Nat) {streams : List (List (List Event))} {h : Nat}
    {ps : List (List Event)} (hps : streams[h]? = some ps) :
    eventsOf h (weave schedule streams) <+: ps.flatten := by
  induction schedule generalizing streams ps with
  | nil => exact List.nil_prefix
  | cons k schedule ih =>
    rw [weave]
    split
    · rename_i piece rest hk
      rw [eventsOf_append, eventsOf_piece]
      by_cases hkh : k = h
      · subst hkh
        obtain rfl : ps = piece :: rest := by simpa [hps] using hk
        have hset : (streams.set k rest)[k]? = some rest := by
          simp [List.getElem?_set_self', hps]
        rw [if_pos rfl, List.flatten_cons, List.prefix_append_right_inj]
        split
        · exact List.nil_prefix
        · exact ih hset
      · rw [if_neg hkh, List.nil_append]
        split
        · exact List.nil_prefix
        · exact ih (by rw [List.getElem?_set_ne hkh, hps])
    · exact ih hps
    · exact ih hps

/-- Settles O51: the pieces are the event list cut up, and each entry of the schedule takes the next piece of one
handle. -/
theorem weaveKeepsHandleOrder : Obligations.WeaveKeepsHandleOrder := by
  refine ⟨flatten_segments, fun schedule logs h es hes => ?_⟩
  have hstream : (logs.map segments)[h]? = some (segments es) := by simp [hes]
  have hprefix := eventsOf_weave_isPrefix schedule hstream
  rwa [flatten_segments] at hprefix

end Sys2Proof.Machine
end

section
/-! PROOF. The fields of a command byte (30_encoding.md R51 to R54) and what the decoder of a frame can answer, one lemma per format (R55): O1, O2 and O6. -/

namespace Sys2Proof.Machine

/-! ### The fields of a command byte (R53) -/

theorem toNat_eq_fields (c : Byte) :
    c.toNat = 64 * (c.extractLsb' 6 2).toNat + 8 * (c.extractLsb' 3 3).toNat + (c.extractLsb' 0 3).toNat := by
  simp only [BitVec.extractLsb'_toNat, Nat.shiftRight_eq_div_pow]
  omega

theorem byte_eq_of_fields {c c' : Byte} (haction : c.extractLsb' 6 2 = c'.extractLsb' 6 2)
    (hreg : c.extractLsb' 3 3 = c'.extractLsb' 3 3) (hlow : c.extractLsb' 0 3 = c'.extractLsb' 0 3) : c = c' := by
  apply BitVec.eq_of_toNat_eq
  rw [toNat_eq_fields c, toNat_eq_fields c', haction, hreg, hlow]

/-- An action code lies in bits 7:6 (R51). -/
theorem actionCode_low (a : Action) :
    a.code.extractLsb' 0 6 = 0 ∧ a.code.extractLsb' 3 3 = 0 ∧ a.code.extractLsb' 0 3 = 0 := by
  cases a <;> decide

/-- A register code lies in bits 5:3 (R52). -/
theorem regCode_outside (r : Reg) : r.code.extractLsb' 6 2 = 0 ∧ r.code.extractLsb' 0 3 = 0 := by
  cases r <;> decide

theorem commandByte_action (a : Action) (r : Reg) :
    (commandByte a r).extractLsb' 6 2 = a.code.extractLsb' 6 2 := by
  rw [commandByte, BitVec.extractLsb'_or, (regCode_outside r).1]
  exact BitVec.or_zero

theorem commandByte_reg (a : Action) (r : Reg) :
    (commandByte a r).extractLsb' 3 3 = r.code.extractLsb' 3 3 := by
  rw [commandByte, BitVec.extractLsb'_or, (actionCode_low a).2.1]
  exact BitVec.zero_or

theorem commandByte_low (a : Action) (r : Reg) : (commandByte a r).extractLsb' 0 3 = 0 := by
  rw [commandByte, BitVec.extractLsb'_or, (actionCode_low a).2.2, (regCode_outside r).2]
  exact BitVec.or_zero

theorem toNat_commandByte (a : Action) (r : Reg) : (commandByte a r).toNat = a.code.toNat + r.code.toNat := by
  obtain ⟨-, ha3, ha0⟩ := actionCode_low a
  obtain ⟨hr6, hr0⟩ := regCode_outside r
  rw [toNat_eq_fields (commandByte a r), commandByte_action, commandByte_reg, commandByte_low,
    toNat_eq_fields a.code, toNat_eq_fields r.code, ha3, ha0, hr6, hr0]
  simp

/-! ### Decoding a command byte -/

theorem actionOfBits_eq_iff (b : BitVec 2) (a : Action) : actionOfBits b = a ↔ b = a.code.extractLsb' 6 2 := by
  cases a <;> revert b <;> decide

theorem regOfBits_eq_some_iff (b : BitVec 3) (r : Reg) : regOfBits b = some r ↔ b = r.code.extractLsb' 3 3 := by
  cases r <;> revert b <;> decide

@[simp] theorem decodeCommand_commandByte (a : Action) (r : Reg) : decodeCommand (commandByte a r) = .ok (a, r) := by
  have haction : actionOfBits ((commandByte a r).extractLsb' 6 2) = a :=
    (actionOfBits_eq_iff _ a).2 (commandByte_action a r)
  have hreg : regOfBits ((commandByte a r).extractLsb' 3 3) = some r :=
    (regOfBits_eq_some_iff _ r).2 (commandByte_reg a r)
  simp [decodeCommand, commandByte_low, haction, hreg]

/-- A command byte is read as an action and a register only where it is theirs. -/
theorem eq_commandByte_of_decodeCommand {c : Byte} {a : Action} {r : Reg} (h : decodeCommand c = .ok (a, r)) :
    c = commandByte a r := by
  unfold decodeCommand at h
  split at h
  · rename_i hlow
    split at h
    · rename_i r' hreg
      cases h
      exact byte_eq_of_fields
        (((actionOfBits_eq_iff _ _).1 rfl).trans (commandByte_action _ _).symm)
        (((regOfBits_eq_some_iff _ _).1 hreg).trans (commandByte_reg _ _).symm)
        (hlow.trans (commandByte_low _ _).symm)
    · cases h
  · cases h

@[simp] theorem commandByte_inj {a a' : Action} {r r' : Reg} :
    commandByte a r = commandByte a' r' ↔ a = a' ∧ r = r' := by
  refine ⟨fun h => ?_, fun ⟨ha, hr⟩ => by rw [ha, hr]⟩
  have hpair : (Except.ok (a, r) : Except DecodeError (Action × Reg)) = .ok (a', r') := by
    rw [← decodeCommand_commandByte a r, h, decodeCommand_commandByte]
  cases hpair
  exact ⟨rfl, rfl⟩

/-! ### Decoding a frame, one lemma per format (R55) -/

@[simp] theorem decodeFrame_commandByte (w : Width) (a : Action) (r : Reg) (rest : List Byte) :
    decodeFrame w (commandByte a r :: rest) = decodeBody w a r rest := by
  simp [decodeFrame]

theorem decodeFrame_ok {w : Width} {f : List Byte} {i : Instr} (h : decodeFrame w f = .ok i) :
    ∃ a r rest, f = commandByte a r :: rest ∧ decodeBody w a r rest = .ok i := by
  cases f with
  | nil => cases h
  | cons c rest =>
    rw [decodeFrame] at h
    split at h
    · rename_i a r hc
      exact ⟨a, r, rest, by rw [eq_commandByte_of_decodeCommand hc], h⟩
    · cases h

theorem decodeBare_ok {a : Action} {r : Reg} {rest : List Byte} {i j : Instr}
    (h : decodeBare a r rest i = .ok j) : rest = [] ∧ j = i := by
  unfold decodeBare at h
  split at h <;> cases h
  exact ⟨‹_›, rfl⟩

theorem decodeData_ok {a : Action} {r : Reg} {rest : List Byte} {k : Byte → Instr} {j : Instr}
    (h : decodeData a r rest k = .ok j) : ∃ d, rest = [d] ∧ j = k d := by
  unfold decodeData at h
  split at h <;> cases h
  exact ⟨_, rfl, rfl⟩

theorem decodeDummies_ok {a : Action} {r : Reg} {n : Nat} {rest : List Byte} {i j : Instr}
    (h : decodeDummies a r n rest i = .ok j) : rest = zeros n ∧ j = i := by
  unfold decodeDummies at h
  split at h
  · split at h <;> cases h
    exact ⟨‹_›, rfl⟩
  · cases h

theorem decodePayload_ok {w : Width} {rest : List Byte} {j : Instr} (h : decodePayload w rest = .ok j) :
    rest.length = w.val ∧
      j = .writeDataRegister (rest.getD 0 0) (rest.getD 1 0) (rest.getD 2 0) (rest.getD 3 0) := by
  unfold decodePayload at h
  split at h <;> cases h
  exact ⟨‹_›, rfl⟩

@[simp] theorem decodeDummies_zeros (a : Action) (r : Reg) (n : Nat) (i : Instr) :
    decodeDummies a r n (zeros n) i = .ok i := by
  simp [decodeDummies, zeros_length]

/-! ### Command bytes that are never formed (R59, R61) -/

theorem decodeBody_neverFormed {a : Action} {r : Reg} (h : commandByte a r ∉ formedCommands) (w : Width)
    (rest : List Byte) : decodeBody w a r rest = .error (.neverFormed a r) := by
  unfold decodeBody
  split
  case h_14 => rfl
  all_goals exact absurd (by decide) h

/-- Settles O6: a byte that names no action and register is an error already, and a pair whose byte is not formed is a dash
of R60. -/
theorem neverFormedCommandsRejected : Obligations.NeverFormedCommandsRejected := by
  refine ⟨rfl, by decide, fun w c rest hc => ?_⟩
  cases hcommand : decodeCommand c with
  | error e => exact ⟨e, by rw [decodeFrame, hcommand]⟩
  | ok p =>
    obtain ⟨a, r⟩ := p
    obtain rfl := eq_commandByte_of_decodeCommand hcommand
    exact ⟨_, (decodeFrame_commandByte w a r rest).trans (decodeBody_neverFormed hc w rest)⟩

/-! ### O1, O2 -/

/-- Settles O1: the two codes have no bit in common, so the fields and the sum of a command byte are theirs. -/
theorem commandByteFields : Obligations.CommandByteFields := by
  refine ⟨by decide, by decide, fun a r => ⟨toNat_commandByte a r, commandByte_action a r, (actionCode_low a).1,
    commandByte_reg a r, (regCode_outside r).1, (regCode_outside r).2, commandByte_low a r,
    decodeCommand_commandByte a r⟩⟩

/-- Settles O2: nine fixed frames, evaluated. -/
theorem specFramesAreRead : Obligations.SpecFramesAreRead := by
  unfold Obligations.SpecFramesAreRead
  decide

end Sys2Proof.Machine
end

section
/-! PROOF. The two round trips between operations and their frames (30_encoding.md R55, R60, R64): O3, O4 and O5. -/

namespace Sys2Proof.Machine

/-! ### A frame that is read as an operation is that operation's -/

section
variable {w : Width} {v : Byte} {a : Action} {r : Reg} {rest : List Byte} {j : Instr}

theorem encode_of_decodeBare {i : Instr} (hi : encode w v i = [[commandByte a r]])
    (h : decodeBare a r rest i = .ok j) : encode w v j = [commandByte a r :: rest] := by
  obtain ⟨rfl, rfl⟩ := decodeBare_ok h
  exact hi

theorem encode_of_decodeData {k : Byte → Instr} (hk : ∀ d, encode w v (k d) = [[commandByte a r, d]])
    (h : decodeData a r rest k = .ok j) : encode w v j = [commandByte a r :: rest] := by
  obtain ⟨d, rfl, rfl⟩ := decodeData_ok h
  exact hk d

theorem encode_of_decodeDummies {i : Instr} {n : Nat} (hi : encode w v i = [commandByte a r :: zeros n])
    (h : decodeDummies a r n rest i = .ok j) : encode w v j = [commandByte a r :: rest] := by
  obtain ⟨rfl, rfl⟩ := decodeDummies_ok h
  exact hi

/-- The listener's buffer gives the bytes of the frame back. -/
theorem take_getD_of_length_le_four {bs : List Byte} (h : bs.length ≤ 4) :
    [bs.getD 0 0, bs.getD 1 0, bs.getD 2 0, bs.getD 3 0].take bs.length = bs := by
  match bs, h with
  | [], _ => rfl
  | [_], _ => rfl
  | [_, _], _ => rfl
  | [_, _, _], _ => rfl
  | [_, _, _, _], _ => rfl
  | _ :: _ :: _ :: _ :: _ :: _, h => exact absurd h (by simp)

theorem encode_of_decodePayload (h : decodePayload w rest = .ok j) :
    encode w v j = [commandByte .write .dtr :: rest] := by
  obtain ⟨hlen, rfl⟩ := decodePayload_ok h
  rw [encode, ← hlen, take_getD_of_length_le_four (by omega)]

/-- Where a write and a clear operation share a frame, either sends it (R86, R87). -/
theorem encode_ite {p : Prop} [Decidable p] {i i' : Instr} {fs : List (List Byte)} (hi : p → encode w v i = fs)
    (hi' : encode w v i' = fs) : encode w v (if p then i else i') = fs := by
  split
  · exact hi ‹p›
  · exact hi'

/-- The cells of R60, each read back by its format. -/
theorem encode_of_decodeBody (h : decodeBody w a r rest = .ok j) : encode w v j = [commandByte a r :: rest] := by
  cases a with
  | clear =>
    cases r with
    | cntr | str => exact encode_of_decodeBare rfl h
    | mdr0 | mdr1 | dtr | otr => cases h
  | read => cases r <;> exact encode_of_decodeDummies rfl h
  | write =>
    cases r with
    | mdr0 | mdr1 => exact encode_of_decodeData (fun d => encode_ite (fun hd => by rw [hd, encode]) rfl) h
    | dtr => exact encode_of_decodePayload h
    | cntr | otr | str => cases h
  | load =>
    cases r with
    | cntr | otr => exact encode_of_decodeBare rfl h
    | mdr0 | mdr1 | dtr | str => cases h

end

/-- Settles O4: a frame that is read begins with the command byte of a cell of R60, and the rest is what the cell's format
says. -/
theorem encodeOfDecode : Obligations.EncodeOfDecode := by
  intro w v f i h
  obtain ⟨a, r, rest, rfl, hbody⟩ := decodeFrame_ok h
  exact encode_of_decodeBody hbody

/-! ### Several frames: the byte written back to MDR1 (45_config.md R92 to R94, 46_lifecycle.md R96) -/

section
variable (w : Width) (v : Byte)

theorem encode_enable :
    encode w v .enable = [commandByte .read .mdr1 :: zeros 1, [commandByte .write .mdr1, countingEnabled v]] := rfl

theorem encode_disable :
    encode w v .disable = [commandByte .read .mdr1 :: zeros 1, [commandByte .write .mdr1, countingDisabled v]] := rfl

theorem encode_defaultConfiguration :
    encode w v .defaultConfiguration = defaultFrames ++ [[commandByte .write .mdr1, countingEnabled v]] := rfl

theorem encode_endOp :
    encode w v .endOp = [[commandByte .clear .cntr], commandByte .read .mdr1 :: zeros 1,
      [commandByte .write .mdr1, countingDisabled v]] := rfl

end

@[simp] theorem countingEnabled_and_enableMask (v : Byte) : countingEnabled v &&& Config.enableMask = 0 := by
  rw [countingEnabled, BitVec.and_assoc, BitVec.and_comm (~~~_), BitVec.and_not_self]
  exact BitVec.and_zero

/-- ENABLE_MASK is a single bit, so a byte that has any of it has all of it. -/
theorem and_enableMask_ne_zero_iff (v : Byte) : v &&& Config.enableMask ≠ 0 ↔ countingDisabled v = v := by
  revert v
  decide

theorem countingDisabled_and_enableMask (v : Byte) : countingDisabled v &&& Config.enableMask ≠ 0 :=
  (and_enableMask_ne_zero_iff _).2 (by simp [countingDisabled, BitVec.or_assoc])

theorem countingEnabled_eq_self {v : Byte} (h : v &&& Config.enableMask = 0) : countingEnabled v = v := by
  calc v &&& ~~~Config.enableMask
      = v &&& Config.enableMask ||| v &&& ~~~Config.enableMask := by rw [h]; exact BitVec.zero_or.symm
    _ = v &&& (Config.enableMask ||| ~~~Config.enableMask) := BitVec.and_or_distrib_left.symm
    _ = v := by rw [BitVec.or_not_self, BitVec.and_allOnes]

/-- Settles O5: one frame is O4's, and the byte that a composite writes back is an MDR1 byte with which it sends it. -/
theorem encodeOfDecodeFrames : Obligations.EncodeOfDecodeFrames := by
  intro w fs i h
  unfold decodeFrames at h
  split at h
  · cases h
  · exact ⟨0, encodeOfDecode w 0 _ i h⟩
  · rename_i c d c' d'
    split_ifs at h with hconfigure hback hbit <;> cases h
    · obtain ⟨rfl, rfl⟩ := hconfigure
      exact ⟨0, rfl⟩
    · obtain ⟨rfl, rfl, rfl⟩ := hback
      exact ⟨d', by rw [encode_enable, countingEnabled_eq_self hbit]; rfl⟩
    · obtain ⟨rfl, rfl, rfl⟩ := hback
      exact ⟨d', by rw [encode_disable, (and_enableMask_ne_zero_iff d').1 hbit]; rfl⟩
  · rename_i c c' d' c'' d''
    split_ifs at h with hend
    cases h
    obtain ⟨rfl, rfl, rfl, rfl, hbit⟩ := hend
    exact ⟨d'', by rw [encode_endOp, (and_enableMask_ne_zero_iff d'').1 hbit]; rfl⟩
  · rename_i f1 f2 f3 f4 f5 f6 c d
    split_ifs at h with hdefault
    cases h
    obtain ⟨hframes, rfl, hbit⟩ := hdefault
    exact ⟨d, by rw [encode_defaultConfiguration, ← hframes, countingEnabled_eq_self hbit]; rfl⟩
  · cases h

/-! ### An operation is read back from its frames -/

theorem readingOf_writeMode0 (d : Byte) :
    readingOf (.writeMode0 d) = if d = 0x08 then .clearMode0 else .writeMode0 d := by
  simp [readingOf]

theorem readingOf_writeMode1 (d : Byte) :
    readingOf (.writeMode1 d) = if d = 0x10 then .clearMode1 else .writeMode1 d := by
  simp [readingOf]

/-- Settles O3: each frame is read by its command's format, and of several frames the commands and the enable bit of the
last byte name the composite. -/
theorem decodeOfEncode : Obligations.DecodeOfEncode := by
  intro w v i hbegin htransfer hwidth
  cases i with
  | transfer wbuf wLen rbuf rLen => exact absurd rfl (htransfer wbuf wLen rbuf rLen)
  | beginOp => exact absurd rfl hbegin
  | writeDataRegister b0 b1 b2 b3 =>
    obtain rfl := hwidth b0 b1 b2 b3 rfl
    rfl
  | writeMode0 d =>
    rw [readingOf_writeMode0]
    rfl
  | writeMode1 d =>
    rw [readingOf_writeMode1]
    rfl
  | loadCounterFromData | loadOutputFromCounter | clearMode0 | clearMode1 | clearCounter | clearStatus |
    readMode0 | readMode1 | readStatus | configure => rfl
  | readOutputRegister | readCounter | readDataRegister =>
    simp [encode, decodeFrames, decodeBody, readingOf]
  | enable => simp [encode_enable, decodeFrames, readingOf, zeros]
  | disable =>
    simpa [encode_disable, decodeFrames, readingOf, zeros] using countingDisabled_and_enableMask v
  | defaultConfiguration => simp [encode_defaultConfiguration, decodeFrames, readingOf, defaultFrames]
  | endOp => simpa [encode_endOp, decodeFrames, readingOf, zeros] using countingDisabled_and_enableMask v

end Sys2Proof.Machine
end

section
/-! PROOF. The size of a frame: its bytes in the frame's number (30_encoding.md R56), its length (R63) and the least time on the wire (70_reset_and_hazards.md R127): O7 and O9. -/

namespace Sys2Proof.Machine

/-! ### O7 -/

/-- Dividing drops the bytes after byte `k`, and the remainder modulo 256 drops those before it. -/
theorem frameNumber_div_mod (f : List Byte) (k : Nat) (h : k < f.length) :
    frameNumber f / 256 ^ (f.length - k - 1) % 256 = (f[k]).toNat := by
  induction f generalizing k with
  | nil => simp at h
  | cons b bs ih =>
    cases k with
    | zero =>
      have htail : frameNumber bs / 256 ^ bs.length = 0 := Nat.div_eq_of_lt (frameNumber_lt bs)
      have htop : frameNumber (b :: bs) / 256 ^ bs.length = b.toNat := by
        rw [frameNumber, Nat.mul_comm, Nat.mul_add_div (Nat.pow_pos (by decide)), htail, Nat.add_zero]
      exact (congrArg (· % 256) htop).trans (Nat.mod_eq_of_lt b.isLt)
    | succ k =>
      have hk : k < bs.length := by simpa using h
      have hpow : 256 ^ bs.length = 256 ^ (bs.length - k - 1) * (256 ^ k * 256) := by
        rw [← Nat.pow_succ, ← Nat.pow_add]
        congr 1
        omega
      have hplace : (b :: bs).length - (k + 1) - 1 = bs.length - k - 1 := by simp
      rw [hplace, frameNumber, hpow, Nat.mul_left_comm, Nat.mul_add_div (Nat.pow_pos (by decide)), ← Nat.mul_assoc,
        Nat.mul_add_mod_self_right]
      exact ih k hk

/-- Settles O7: a byte is 8 bits of the number, so a power of 2 with an exponent 8 times as large is one of 256. -/
theorem frameBytePositions : Obligations.FrameBytePositions := by
  intro f
  simp only [Nat.pow_mul]
  exact ⟨frameNumber_lt f, frameNumber_div_mod f⟩

/-! ### O9 -/

/-- At 100 kHz a byte takes 80 microseconds. -/
theorem minSclkMicros_settings (n : Nat) : minSclkMicros Config.settings n = 80 * n := by
  simp only [minSclkMicros, Config.settings]
  omega

theorem frame_lengths (w : Width) (v : Byte) {i : Instr}
    (hi : ∀ wbuf wLen rbuf rLen, i ≠ .transfer wbuf wLen rbuf rLen) :
    ∀ f ∈ encode w v i,
      f.length = 1 ∨ f.length = 2 ∨ f.length = 1 + w.val ∨ (i = .defaultConfiguration ∧ f.length = 5) := by
  cases i with
  | transfer wbuf wLen rbuf rLen => exact absurd rfl (hi wbuf wLen rbuf rLen)
  | loadCounterFromData | loadOutputFromCounter | clearCounter | clearStatus =>
    exact List.forall_mem_singleton.2 (.inl rfl)
  | writeMode0 | writeMode1 | readMode0 | readMode1 | readStatus | clearMode0 | clearMode1 =>
    exact List.forall_mem_singleton.2 (.inr (.inl rfl))
  | writeDataRegister b0 b1 b2 b3 =>
    have hlength : ([b0, b1, b2, b3].take w.val).length = w.val := by simp; omega
    exact List.forall_mem_singleton.2 (.inr (.inr (.inl (by rw [List.length_cons, hlength, Nat.add_comm]))))
  | readOutputRegister | readCounter | readDataRegister =>
    exact List.forall_mem_singleton.2 (.inr (.inr (.inl (by rw [List.length_cons, zeros_length, Nat.add_comm]))))
  | configure | enable | disable => simp [encode, zeros]
  | defaultConfiguration => simp [encode, defaultFrames]
  | beginOp => simp [encode]
  | endOp => simp [encode, zeros]

/-- Settles O9: the length of a frame gives its time, and no length exceeds 5 since a width is at most 4. -/
theorem ownFrameTimes : Obligations.OwnFrameTimes := by
  intro w v i hi f hf
  have hlength := frame_lengths w v hi f hf
  refine ⟨hlength, minSclkMicros_settings _, ?_⟩
  rw [minSclkMicros_settings]
  omega

end Sys2Proof.Machine
end

section
/-! PROOF. The frames of an operation that completes, byte by byte as sent, and the answers they use up: they are its encoding, with the MDR1 byte that the bus answered (30_encoding.md R55, R57, R64; 40_framing.md R68): O10. -/

namespace Sys2Proof.Machine

/-! ### Runs that send given frames -/

/-- `t` comes after `s` with exactly these frames sent, no other frame, and one answer used up for each byte of them. -/
structure State.Sent (s : State) (fs : List (List Byte)) (t : State) : Prop where
  events : ∃ es, t.events = s.events ++ es ∧ ∀ rest, sentFrames (es ++ rest) = fs ++ sentFrames rest
  replies : ∀ k, t.replyAt k = s.replyAt (fs.flatten.length + k)

namespace State.Sent
variable {s t u : State} {fs gs : List (List Byte)}

theorem trans (h : s.Sent fs t) (h' : t.Sent gs u) : s.Sent (fs ++ gs) u where
  events := by
    obtain ⟨es, hes, hfs⟩ := h.events
    obtain ⟨es', hes', hgs⟩ := h'.events
    exact ⟨es ++ es', by rw [hes', hes, List.append_assoc],
      fun rest => by rw [List.append_assoc, hfs, hgs, List.append_assoc]⟩
  replies k := by rw [h'.replies, h.replies, List.flatten_append, List.length_append, Nat.add_assoc]

/-- Events outside frames send nothing. -/
theorem of_no_frame {es : List Event} (hes : t.events = s.events ++ es)
    (hframes : ∀ rest, sentFrames (es ++ rest) = sentFrames rest) (hreplies : ∀ k, t.replyAt k = s.replyAt k) :
    s.Sent [] t :=
  ⟨⟨es, hes, hframes⟩, fun k => (hreplies k).trans (by simp)⟩

theorem afterFrame (s : State) {sent received : List Byte} (h : received.length = sent.length) :
    s.Sent [sent] (s.afterFrame (frameEvents s.csLine s.settings sent received) sent.length) where
  events := ⟨_, rfl, sentFrames_frameEvents s.csLine s.settings h.symm⟩
  replies k := by
    rw [State.replyAt_afterFrame, List.flatten_singleton]

theorem sentFrames_drop (h : s.Sent fs t) : sentFrames (t.events.drop s.events.length) = fs := by
  obtain ⟨es, hes, hfs⟩ := h.events
  simpa [hes, sentFrames, framesOf, framesFrom] using hfs []

end State.Sent

/-- A piece that is stuck in a frame or completes, and then has sent these frames and has a value with `P`. -/
def Flow.Transmits {α : Type} (m : Flow α) (s : State) (fs : List (List Byte)) (P : α → Prop) : Prop :=
  m.Ends (fun a t => P a ∧ s.Sent fs t) fun t => t.inTxn = true

namespace Flow.Transmits
variable {α β : Type} {m : Flow α} {s : State} {fs gs : List (List Byte)} {P : α → Prop} {Q : β → Prop}

theorem giving {f : α → β} (h : m.Transmits s fs P) (hf : ∀ a, P a → Q (f a)) : (m.giving f).Transmits s fs Q :=
  Flow.ends_giving (Flow.ends_mono h (fun a _ ⟨ha, hsent⟩ => ⟨hf a ha, hsent⟩) fun _ ht => ht)

theorem andThen {k : α → State → Flow β} (h : m.Transmits s fs P)
    (hk : ∀ a t, P a → s.Sent fs t → (k a t).Transmits t gs Q) : (m.andThen k).Transmits s (fs ++ gs) Q :=
  Flow.ends_andThen h fun a t ⟨ha, hst⟩ =>
    Flow.ends_mono (hk a t ha hst) (fun _ _ ⟨hb, htu⟩ => ⟨hb, hst.trans htu⟩) fun _ hu => hu

theorem giving_any (h : m.Transmits s fs P) (f : α → β) : (m.giving f).Transmits s fs fun _ => True :=
  h.giving fun _ _ => trivial

/-- What happened before without a frame does not count. -/
theorem of_sent_nil {s' : State} (hs : s.Sent [] s') (h : m.Transmits s' fs P) : m.Transmits s fs P :=
  Flow.ends_mono h (fun _ _ ⟨ha, hsent⟩ => ⟨ha, hs.trans hsent⟩) fun _ ht => ht

end Flow.Transmits

/-! ### The shared operations -/

section
variable (s : State)

theorem frame_transmits (w : List Byte) (n : Nat) :
    (frame w n s).Transmits s [w ++ zeros n] fun r =>
      ∃ bs, s.nextReplies (w.length + n) = some bs ∧ r = bs.drop w.length := by
  have hlength : (w ++ zeros n).length = w.length + n := by rw [List.length_append, zeros_length]
  refine frame_ends (fun bs hbs => ⟨⟨bs, hbs, rfl⟩, ?_⟩) fun _ _ _ _ _ => rfl
  rw [← hlength] at hbs ⊢
  exact .afterFrame s (State.repliesFrom_length hbs)

theorem txn_transmits (w : List Byte) (n : Nat) :
    (txn (some w) (some n) s).Transmits s [w ++ zeros n] fun a =>
      ∃ bs, s.nextReplies (w.length + n) = some bs ∧ a.2 = bs.drop w.length :=
  (frame_transmits s w n).giving fun _ h => h

theorem cmd_transmits (c : Byte) : (cmd c s).Transmits s [[c]] fun _ => True :=
  (txn_transmits s [c] 0).giving_any Prod.fst

theorem memWrite_transmits (r : Reg) (n : Nat) (bytes : List Byte) :
    (memWrite r n bytes s).Transmits s [commandByte .write r :: bytes.take n] fun _ => True := by
  have h := (txn_transmits s (commandByte .write r :: bytes.take n) 0).giving_any Prod.fst
  rwa [show zeros 0 = [] from rfl, List.append_nil] at h

theorem memRead_transmits (r : Reg) (n : Nat) :
    (memRead r n s).Transmits s [commandByte .read r :: zeros n] fun rs =>
      ∃ bs, s.nextReplies (1 + n) = some bs ∧ rs = bs.drop 1 :=
  (txn_transmits s [commandByte .read r] n).giving fun _ h => h

/-- The byte read is the answer to the second transfer. -/
theorem readByte_transmits (r : Reg) :
    (readByte r s).Transmits s [commandByte .read r :: zeros 1] fun v => v = (s.replyAt 1).getD 0 := by
  refine (memRead_transmits s r 1).giving ?_
  rintro _ ⟨bs, hbs, rfl⟩
  obtain ⟨-, hread⟩ := State.repliesFrom_append (m := 1) (n := 1) hbs
  cases hb : s.replyAt 1 with
  | none => simp [State.repliesFrom, hb] at hread
  | some b =>
    have hbyte : [b] = bs.drop 1 := by simpa [State.repliesFrom, hb] using hread
    rw [← hbyte]
    rfl

theorem readWide_transmits (r : Reg) :
    (readWide r s).Transmits s [commandByte .read r :: zeros s.width.val] fun _ => True :=
  (memRead_transmits s r s.width.val).giving_any assemble

/-- A read of MDR1 and a write back (45_config.md R92, R93). -/
theorem readModifyWrite_transmits (f : Byte → Byte) :
    ((readMode1 s).andThen fun v t => (writeMode1 (f v) t).giving fun _ => ()).Transmits s
      [commandByte .read .mdr1 :: zeros 1, [commandByte .write .mdr1, f ((s.replyAt 1).getD 0)]] fun _ => True :=
  (readByte_transmits s .mdr1).andThen fun v t hv _ => by
    rw [← hv]
    exact (memWrite_transmits t .mdr1 1 [f v]).giving_any _

theorem configureFrames_transmits (m0 m1 : Byte) :
    (configureFrames m0 m1 s).Transmits s [[commandByte .write .mdr0, m0], [commandByte .write .mdr1, m1]]
      fun _ => True :=
  (memWrite_transmits s .mdr0 1 [m0]).andThen fun _ t _ _ => memWrite_transmits t .mdr1 1 [m1]

/-- configure's write of the width sends nothing (45_config.md R91). -/
theorem sent_setWidth (w : Width) : s.Sent [] (s.setWidth w) :=
  .of_no_frame (List.append_nil _).symm (fun _ => rfl) fun _ => rfl

/-- MDR1 is read after the frames of DTR, of the clear and of the load, which have 7 bytes (45_config.md R94). -/
theorem defaultTail_transmits :
    (defaultTail 4 s).Transmits s
      ([[commandByte .write .dtr, 0, 0, 0, 0], [commandByte .clear .cntr], [commandByte .load .cntr],
        commandByte .read .mdr1 :: zeros 1] ++
        [[commandByte .write .mdr1, countingEnabled ((s.replyAt 8).getD 0)]]) fun _ => True :=
  (memWrite_transmits s .dtr 4 (dataBuffer 0 0 0 0)).andThen fun _ t1 _ h1 =>
    (cmd_transmits t1 _).andThen fun _ t2 _ h2 =>
      (cmd_transmits t2 _).andThen fun _ t3 _ h3 => by
        have hreply : t3.replyAt 1 = s.replyAt 8 := by rw [h3.replies, h2.replies, h1.replies]; rfl
        exact hreply ▸ readModifyWrite_transmits t3 countingEnabled

end

/-! ### Every operation -/

/-- begin's three events are outside frames (46_lifecycle.md R95). -/
theorem sent_begin (s : State) : s.Sent [] ((csDrive .high (pinOutput (busBegin s))).setPhase .active) :=
  .of_no_frame (es := [.busClaim, .pinOut s.csLine, .cs s.csLine .high])
    (by simp [csDrive, pinOutput, busBegin]) (fun _ => rfl) fun _ => rfl

/-- end's release of the bus and of the pin is outside frames (46_lifecycle.md R96). -/
theorem sent_end (s : State) : s.Sent [] ((pinRelease (busEnd s)).setPhase .ended) :=
  .of_no_frame (es := [.busRelease, .pinHiZ s.csLine]) (by simp [pinRelease, busEnd]) (fun _ => rfl) fun _ => rfl

theorem sent_takeStale (s : State) : s.Sent [] s.takeStale :=
  .of_no_frame (List.append_nil _).symm (fun _ => rfl) fun _ => rfl

theorem transfer_transmits {wbuf : Option (List Byte)} {wLen : Nat} {rbuf : Option (List Byte)} {rLen : Nat}
    (hw : (Instr.transfer wbuf wLen rbuf rLen).wellFormed = true) (v : Byte) (s : State) :
    (transfer wbuf rbuf s).Transmits s (encode s.width v (.transfer wbuf wLen rbuf rLen)) fun _ => True := by
  cases wbuf with
  | none => cases rbuf <;> exact ⟨trivial, sent_takeStale s⟩
  | some b =>
    cases rbuf with
    | none => exact ⟨trivial, sent_takeStale s⟩
    | some r =>
      obtain ⟨-, rfl⟩ : b.length = wLen ∧ r.length = rLen := by simpa [Instr.wellFormed, bufferMatches] using hw
      exact Flow.ends_mono (txn_transmits s b r.length) (fun _ _ ⟨_, hsent⟩ => ⟨trivial, hsent⟩) fun _ h => h

/-- MDR1 is captured by the second byte of the read frame, which follows the clear's one byte (46_lifecycle.md R96). -/
theorem endHandle_transmits (s : State) :
    (endHandle s).Transmits s (encode s.width ((s.replyAt 2).getD 0) .endOp) fun _ => True := by
  rw [encode_endOp]
  refine (cmd_transmits s _).andThen fun _ t _ h => ?_
  have hreply : t.replyAt 1 = s.replyAt 2 := h.replies 1
  rw [← hreply]
  exact (readModifyWrite_transmits t countingDisabled).andThen (gs := []) fun _ u _ _ => ⟨trivial, sent_end u⟩

/-- configure's frames have 4 bytes, and the width it stores is the one that the DTR frame moves (45_config.md R94). -/
theorem defaultConfiguration_transmits (s : State) :
    (bodyOf .defaultConfiguration s).Transmits s (encode s.width ((s.replyAt 12).getD 0) .defaultConfiguration)
      fun _ => True := by
  rw [bodyOf_defaultConfiguration]
  refine (configureFrames_transmits s _ _).andThen fun _ t _ h => ?_
  have hreply : (t.setWidth 4).replyAt 8 = s.replyAt 12 := h.replies 8
  have htail := (defaultTail_transmits (t.setWidth 4)).giving_any fun _ => Result.noValue
  rw [hreply] at htail
  exact htail.of_sent_nil (sent_setWidth t 4)

theorem bodyOf_transmits {i : Instr} (hw : i.wellFormed = true) (s : State) :
    (bodyOf i s).Transmits s (encode s.width ((s.replyAt (mdr1Transfer i)).getD 0) i) fun _ => True := by
  cases i with
  | transfer wbuf wLen rbuf rLen => exact (transfer_transmits hw _ s).giving_any _
  | writeMode0 | writeMode1 | writeDataRegister | clearMode0 | clearMode1 =>
    exact (memWrite_transmits s _ _ _).giving_any _
  | loadCounterFromData | loadOutputFromCounter | clearCounter | clearStatus =>
    exact (cmd_transmits s _).giving_any _
  | readMode0 | readMode1 | readStatus => exact (readByte_transmits s _).giving_any _
  | readOutputRegister | readDataRegister => exact ((readWide_transmits s _).giving_any _).giving_any _
  | readCounter => exact (readWide_transmits s _).giving_any _
  | configure m0 m1 =>
    rw [bodyOf_configure]
    exact (configureFrames_transmits s m0 m1).andThen (gs := []) fun _ t _ _ => ⟨trivial, sent_setWidth t _⟩
  | enable => exact (readModifyWrite_transmits s countingEnabled).giving_any _
  | disable => exact (readModifyWrite_transmits s countingDisabled).giving_any _
  | defaultConfiguration => exact defaultConfiguration_transmits s
  | beginOp => exact ⟨trivial, sent_begin s⟩
  | endOp => exact (endHandle_transmits s).giving_any _

/-- Settles O10: where the body completes it has sent its encoding, and observing its result adds no event. -/
theorem operationsSendTheirEncoding : Obligations.OperationsSendTheirEncoding := by
  intro i s t hs hexec ht
  obtain ⟨hw, -⟩ := exec_next hexec
  obtain ⟨_, u, ⟨-, hsent⟩, rfl⟩ := exec_completes hexec hs ht (bodyOf_transmits hw s)
  exact hsent.sentFrames_drop

end Sys2Proof.Machine
end

section
/-! PROOF. The transfer primitive as an operation (40_framing.md R66 to R69), and where a byte transfer never returns (R72): O25 and O27, and O40 for the two frames of configure (45_config.md R91). -/

namespace Sys2Proof.Machine

/-- A transfer with both buffers is one frame, and its result is what the read phase kept. -/
theorem exec_transfer_present {s : State} (h : s.Ready) (w old : List Byte) :
    exec (.transfer (some w) w.length (some old) old.length) s
      = .next ((frame w old.length s).giving (Result.transfer true)).finish := by
  have hw : (Instr.transfer (some w) w.length (some old) old.length).wellFormed = true := by
    simp [Instr.wellFormed, bufferMatches]
  rw [exec_runs hw h.1 h.2, bodyOf, transfer, Option.map_some, txn_present]
  cases frame w old.length s <;> rfl

/-- Settles O25: the frame completes with the bytes received after the write phase. -/
theorem transferCompletes : Obligations.TransferCompletes := by
  intro s w old bs h hbs
  rw [exec_transfer_present h, frame_done hbs]
  rfl

/-! ### O27 -/

theorem step_of_stuck {s : State} (h : s.inTxn = true) : step s = .next s := by
  simp [step, takeOperation, h]

/-- Settles O27: the frame is stuck, so there is no result to observe, and no operation is taken from there. -/
theorem stalledTransferIsStuck : Obligations.StalledTransferIsStuck := by
  intro s w old bs k h hk hbs hnone
  refine ⟨_, ?_, rfl, step_of_stuck rfl⟩
  rw [exec_transfer_present h, frame_stuck hk hbs hnone]
  rfl

/-! ### O40 -/

/-- `MemWrite(sel, n, bytes)` of which a transfer never returns. -/
theorem memWrite_stuck {s : State} {n k : Nat} {bytes bs : List Byte} (r : Reg) (hk : k < 1 + (bytes.take n).length)
    (h : s.nextReplies k = some bs) (hn : s.replyAt k = none) :
    memWrite r n bytes s = .stuck (s.stalled
      (openFrameEvents s.csLine s.settings (commandByte .write r :: bytes.take n) bs) k) := by
  have hk' : k < (commandByte .write r :: bytes.take n).length + 0 := by
    rw [List.length_cons]
    omega
  simp only [memWrite, txn_present, frame_stuck hk' h hn, Flow.giving_stuck, zeros, List.replicate_zero,
    List.append_nil]

theorem State.afterFrame_stalled (s : State) (es es' : List Event) (n n' : Nat) :
    (s.afterFrame es n).stalled es' n' = s.stalled (es ++ es') (n + n') := by
  simp [State.afterFrame, State.moved, State.stalled, List.drop_drop, Nat.add_assoc]

theorem sentFrames_openFrameEvents (line : LineId) (settings : Settings) (sent received : List Byte) :
    sentFrames (openFrameEvents line settings sent received) = [] := by
  rw [sentFrames, framesOf_openFrameEvents, List.map_nil]

/-- A stall in one of configure's frames: the first frame is complete where the stall is in the second. -/
theorem configureFrames_stuck {s : State} {k : Nat} {bs : List Byte} (m0 m1 : Byte) (hk : k < 4)
    (h : s.nextReplies k = some bs) (hn : s.replyAt k = none) :
    ∃ es, configureFrames m0 m1 s = .stuck (s.stalled es k) ∧
      sentFrames es = if k < 2 then [] else [[commandByte .write .mdr0, m0]] := by
  by_cases hfirst : k < 2
  · refine ⟨openFrameEvents s.csLine s.settings [commandByte .write .mdr0, m0] bs, ?_, ?_⟩
    · have hwrite0 := memWrite_stuck (n := 1) (bytes := [m0]) .mdr0 hfirst h hn
      rw [configureFrames, writeMode0, hwrite0]
      rfl
    · rw [if_pos hfirst, sentFrames_openFrameEvents]
  · obtain ⟨j, rfl⟩ : ∃ j, k = 2 + j := Nat.exists_eq_add_of_le (by omega)
    have hj : j < 2 := by omega
    obtain ⟨h0, h1⟩ := State.repliesFrom_append h
    refine ⟨frameEvents s.csLine s.settings [commandByte .write .mdr0, m0] (bs.take 2) ++
      openFrameEvents s.csLine s.settings [commandByte .write .mdr1, m1] (bs.drop 2), ?_, ?_⟩
    · have hwrite0 := memWrite_done (n := 1) (bytes := [m0]) .mdr0 h0
      rw [configureFrames, writeMode0, hwrite0, ← State.afterFrame_stalled]
      exact memWrite_stuck (n := 1) (bytes := [m1]) .mdr1 hj ((State.nextReplies_afterFrame ..).trans h1)
        ((State.replyAt_afterFrame ..).trans hn)
    · have hlength : [commandByte .write .mdr0, m0].length = (bs.take 2).length := (State.repliesFrom_length h0).symm
      rw [if_neg hfirst, sentFrames_frameEvents _ _ hlength, sentFrames_openFrameEvents]

/-- Settles O40: the stall is in one of the two frames, and the width is written after both. -/
theorem stalledConfigureKeepsWidth : Obligations.StalledConfigureKeepsWidth := by
  intro s m0 m1 k bs h hk hbs hn
  obtain ⟨es, hstuck, hsent⟩ := configureFrames_stuck m0 m1 hk hbs hn
  refine ⟨s.stalled es k, ?_, rfl, rfl, rfl, rfl, rfl, ?_⟩
  · rw [exec_runs rfl h.1 h.2, bodyOf_configure, hstuck]
    rfl
  · rw [State.stalled, List.drop_left]
    exact hsent

end Sys2Proof.Machine
end

section
/-! PROOF. The write phase of each frame an operation sends and the dummy bytes after it (40_framing.md R66, R68, R69): O55. -/

namespace Sys2Proof.Machine

/-- The first `n` bytes of the frame can be its write phase: what follows them is dummy bytes. -/
def IsWritePhase (n : Nat) (f : List Byte) : Prop :=
  n ≤ f.length ∧ f.drop n = List.replicate (f.length - n) 0x00

namespace IsWritePhase

/-- The caller's bytes, then the dummy bytes of the read phase, as the model's `frame` sends them (40_framing.md R69). -/
theorem append_zeros (w : List Byte) (n : Nat) : IsWritePhase w.length (w ++ zeros n) := by
  simp [IsWritePhase, zeros, Config.dummyByte]

/-- A frame without a read phase. -/
theorem whole {n : Nat} {f : List Byte} (h : f.length = n) : IsWritePhase n f := by
  subst h
  simpa [zeros] using append_zeros f 0

/-- A read frame. -/
theorem command (c : Byte) (n : Nat) : IsWritePhase 1 (c :: zeros n) := append_zeros [c] n

end IsWritePhase

/-- The write phases and the frames of an operation, one by one. -/
theorem writePhases_encode (w : Width) (v : Byte) (i : Instr) :
    List.Forall₂ IsWritePhase (writePhases w i) (encode w v i) := by
  cases i with
  | transfer wbuf wLen rbuf rLen =>
    cases wbuf with
    | none => exact .nil
    | some b =>
      cases rbuf with
      | none => exact .nil
      | some r => exact .cons (.append_zeros b rLen) .nil
  | writeMode0 | writeMode1 | loadCounterFromData | loadOutputFromCounter | clearMode0 | clearMode1 | clearCounter
  | clearStatus =>
    exact .cons (.whole rfl) .nil
  | writeDataRegister b0 b1 b2 b3 =>
    have hlength : ([b0, b1, b2, b3].take w.val).length = w.val := by simp; omega
    exact .cons (.whole (by rw [List.length_cons, hlength, Nat.add_comm])) .nil
  | readMode0 | readMode1 | readStatus | readOutputRegister | readCounter | readDataRegister =>
    exact .cons (.command _ _) .nil
  | configure m0 m1 => exact .cons (.whole rfl) (.cons (.whole rfl) .nil)
  | enable => exact .cons (.command _ 1) (.cons (.whole rfl) .nil)
  | disable => exact .cons (.command _ 1) (.cons (.whole rfl) .nil)
  | defaultConfiguration =>
    exact .cons (.whole rfl) (.cons (.whole rfl) (.cons (.whole rfl) (.cons (.whole rfl) (.cons (.whole rfl)
      (.cons (.command _ 1) (.cons (.whole rfl) .nil))))))
  | beginOp => exact .nil
  | endOp => exact .cons (.whole rfl) (.cons (.command _ 1) (.cons (.whole rfl) .nil))

/-- Settles O55: the two lists match one by one, also for terms of Instr that are no operations. -/
theorem writePhasesFitEncoding : Obligations.WritePhasesFitEncoding := by
  intro w v i _
  obtain ⟨hlength, hphases⟩ := List.forall₂_iff_zip.1 (writePhases_encode w v i)
  exact ⟨hlength, fun _ hp => hphases hp⟩

end Sys2Proof.Machine
end

section
/-! PROOF. Register writes that complete (41_write.md R73 to R75): O28 and O29. -/

namespace Sys2Proof.Machine

/-- An operation whose body is one `MemWrite` completes with its one frame where the transfers return. -/
theorem exec_memWrite_done {i : Instr} {s : State} {r : Reg} {n : Nat} {bytes bs : List Byte}
    (hw : i.wellFormed = true) (hp : phaseOf i = .active) (hbody : bodyOf i s = (memWrite r n bytes s).giving .ok)
    (h : s.Ready) (hbs : s.nextReplies (1 + (bytes.take n).length) = some bs) :
    exec i s = .next (s.completed
      (frameEvents s.csLine s.settings (commandByte .write r :: bytes.take n) bs)
      (1 + (bytes.take n).length) (.ok true)) := by
  rw [exec_runs hw (h.1.trans hp.symm) h.2, hbody, memWrite_done r hbs, Flow.giving_done,
    State.finish_afterFrame]

/-- Settles O28: both are a `MemWrite` of one byte, whose command bytes are 0x88 and 0x90 (30_encoding.md R54). -/
theorem writeModeCompletes : Obligations.WriteModeCompletes := by
  intro s d x y h hbs
  exact ⟨exec_memWrite_done (r := .mdr0) (n := 1) (bytes := [d]) rfl rfl rfl h hbs,
    exec_memWrite_done (r := .mdr1) (n := 1) (bytes := [d]) rfl rfl rfl h hbs⟩

theorem take_dataBuffer_length (b0 b1 b2 b3 : Byte) (w : Width) :
    ((dataBuffer b0 b1 b2 b3).take w.val).length = w.val :=
  List.length_take_of_le (Nat.le_of_lt_succ w.isLt)

/-- Settles O29: a `MemWrite` of `st.width` bytes, and every width is within the buffer. -/
theorem writeDataRegisterCompletes : Obligations.WriteDataRegisterCompletes := by
  intro s b0 b1 b2 b3 bs h hbs
  have hlength := take_dataBuffer_length b0 b1 b2 b3 s.width
  have hdone := exec_memWrite_done (i := .writeDataRegister b0 b1 b2 b3) (r := .dtr) (n := s.width.val)
    (bytes := dataBuffer b0 b1 b2 b3) (bs := bs) rfl rfl rfl h (by rwa [hlength])
  rwa [hlength] at hdone

end Sys2Proof.Machine
end

section
/-! PROOF. Commands that complete (42_load.md R76, R77): O30. -/

namespace Sys2Proof.Machine

/-- An operation whose body is one `Cmd` completes with its one byte, whatever the width, where the transfer returns. -/
theorem exec_cmd_done {i : Instr} {s : State} {c : Byte} {bs : List Byte} (hw : i.wellFormed = true)
    (hp : phaseOf i = .active) (hbody : bodyOf i s = (cmd c s).giving .ok) (h : s.Ready)
    (hbs : s.nextReplies 1 = some bs) :
    exec i s = .next (s.completed (frameEvents s.csLine s.settings [c] bs) 1 (.ok true)) := by
  rw [exec_runs hw (h.1.trans hp.symm) h.2, hbody, cmd_done c hbs, Flow.giving_done, State.finish_afterFrame]

theorem onFrame_loadOtr (d : RefDev) : d.onFrame [commandByte .load .otr] = some { d with otr := d.cntr } := rfl

/-- Settles O30: both are a `Cmd`, whose command bytes are 0xE0 and 0xE8 (30_encoding.md R54), and the reference device
takes each frame by its load rule (20_memory.md R48). -/
theorem loadsComplete : Obligations.LoadsComplete := by
  refine ⟨fun s x h hbs => ⟨?_, ?_⟩, fun d => ⟨onFrame_loadCntr d, onFrame_loadOtr d⟩⟩
  · exact exec_cmd_done (i := .loadCounterFromData) (c := commandByte .load .cntr) rfl rfl rfl h hbs
  · exact exec_cmd_done (i := .loadOutputFromCounter) (c := commandByte .load .otr) rfl rfl rfl h hbs

end Sys2Proof.Machine
end

section
/-! PROOF. Register reads that complete (43_read.md R78 to R84): O31 and O32. -/

namespace Sys2Proof.Machine

/-- An operation whose body is one `MemRead` completes with its one frame, and with what it makes of the bytes captured,
where the transfers return. -/
theorem exec_memRead_done {i : Instr} {s : State} {r : Reg} {n : Nat} {x : Byte} {rs : List Byte}
    (f : List Byte → Result) (hw : i.wellFormed = true) (hp : phaseOf i = .active)
    (hbody : bodyOf i s = (memRead r n s).giving f) (h : s.Ready) (hrs : s.nextReplies (1 + n) = some (x :: rs)) :
    exec i s = .next (s.completed
      (frameEvents s.csLine s.settings (commandByte .read r :: zeros n) (x :: rs)) (1 + n) (f rs)) := by
  rw [exec_runs hw (h.1.trans hp.symm) h.2, hbody, memRead_done r hrs, Flow.giving_done, State.finish_afterFrame]

theorem Flow.giving_giving {α β γ : Type} (m : Flow α) (f : α → β) (g : β → γ) :
    (m.giving f).giving g = m.giving (g ∘ f) :=
  Flow.andThen_andThen m _ _

/-- Settles O31: each is a `MemRead` of one byte, whose command bytes are 0x48, 0x50 and 0x70 (30_encoding.md R54). -/
theorem singleByteReadsComplete : Obligations.SingleByteReadsComplete := by
  intro s x y h hbs
  have hbody : ∀ r, (readByte r s).giving Result.u8 = (memRead r 1 s).giving (.u8 ∘ firstByte) :=
    fun _ => Flow.giving_giving ..
  exact ⟨exec_memRead_done (i := .readMode0) _ rfl rfl (hbody .mdr0) h hbs,
    exec_memRead_done (i := .readMode1) _ rfl rfl (hbody .mdr1) h hbs,
    exec_memRead_done (i := .readStatus) _ rfl rfl (hbody .str) h hbs⟩

/-- Settles O32: each is a `MemRead` of `st.width` bytes, whose command bytes are 0x68, 0x60 and 0x58 (30_encoding.md
R54); OTR and DTR take the assembled value as signed. -/
theorem multiByteReadsComplete : Obligations.MultiByteReadsComplete := by
  intro s x rs h hbs
  have hunsigned : ∀ r, (readWide r s).giving Result.u32 = (memRead r s.width.val s).giving (.u32 ∘ assemble) :=
    fun _ => Flow.giving_giving ..
  have hsigned : ∀ r, ((readWide r s).giving toSigned32).giving Result.i32 =
      (memRead r s.width.val s).giving (.i32 ∘ toSigned32 ∘ assemble) :=
    fun _ => (Flow.giving_giving ..).trans (Flow.giving_giving ..)
  exact ⟨exec_memRead_done (i := .readOutputRegister) _ rfl rfl (hsigned .otr) h hbs,
    exec_memRead_done (i := .readCounter) _ rfl rfl (hunsigned .cntr) h hbs,
    exec_memRead_done (i := .readDataRegister) _ rfl rfl (hsigned .dtr) h hbs⟩

end Sys2Proof.Machine
end

section
/-! PROOF. Big-endian assembly, its loop and its closed form (43_read.md R81): O34. -/

namespace Sys2Proof.Machine

theorem assembleFrom_append (acc : Word) (bs cs : List Byte) :
    assembleFrom acc (bs ++ cs) = assembleFrom (assembleFrom acc bs) cs := by
  induction bs generalizing acc with
  | nil => rfl
  | cons b bs ih => exact ih _

/-- The number of a frame as the sum over its places (30_encoding.md R56). -/
theorem frameNumber_eq_sum (bs : List Byte) :
    frameNumber bs = ∑ i : Fin bs.length, (bs[i]).toNat * 256 ^ (bs.length - 1 - i.val) := by
  induction bs with
  | nil => rfl
  | cons b bs ih =>
    simp [frameNumber, ih, Fin.sum_univ_succ, Nat.sub_sub, Nat.add_comm 1]

/-- Settles O34: the loop goes on from where the bytes before left it, and its value is the frame number of the bytes
modulo the size of a word. -/
theorem assemblyIsBigEndian : Obligations.AssemblyIsBigEndian := by
  refine ⟨rfl, fun bs b => assembleFrom_append 0 bs [b], fun bs => ?_, fun bs h => ⟨?_, toNat_assemble_lt h⟩⟩
  · rw [toNat_assemble, frameNumber_eq_sum]
  · rw [toNat_assemble_of_length_le h, frameNumber_eq_sum]

end Sys2Proof.Machine
end

section
/-! PROOF. Clears (44_clear.md R86 to R89): the clear-mode quirk, the true Clear commands, and the counter read after one (95_test_vectors.md S6): O36, O37 and O47. -/

namespace Sys2Proof.Machine

/-! ### O36 -/

/-- R86: the data byte is the Clear command code. -/
theorem exec_clearMode0 (s : State) : exec .clearMode0 s = exec (.writeMode0 (commandByte .clear .mdr0)) s := rfl

/-- R87. -/
theorem exec_clearMode1 (s : State) : exec .clearMode1 s = exec (.writeMode1 (commandByte .clear .mdr1)) s := rfl

/-- Settles O36: both are the write operation with a fixed byte, 0x08 and 0x10 (30_encoding.md R54), so they complete as
it does. -/
theorem clearModesComplete : Obligations.ClearModesComplete := by
  refine ⟨fun s x y h hbs => ⟨?_, ?_⟩, fun s => ⟨exec_clearMode0 s, exec_clearMode1 s⟩⟩
  · rw [exec_clearMode0]
    exact (writeModeCompletes s _ x y h hbs).1
  · rw [exec_clearMode1]
    exact (writeModeCompletes s _ x y h hbs).2

/-! ### O37 -/

theorem onFrame_clearCntr (d : RefDev) : d.onFrame [commandByte .clear .cntr] = some { d with cntr := 0 } := rfl

theorem onFrame_clearStr (d : RefDev) : d.onFrame [commandByte .clear .str] = some { d with str := 0 } := rfl

/-- Settles O37: both are a `Cmd`, whose command bytes are 0x20 and 0x30 (30_encoding.md R54), and the reference device
takes each frame by its clear rule (20_memory.md R48). -/
theorem clearCommandsComplete : Obligations.ClearCommandsComplete := by
  refine ⟨fun s x h hbs => ⟨?_, ?_⟩, fun d => ⟨onFrame_clearCntr d, onFrame_clearStr d⟩⟩
  · exact exec_cmd_done (i := .clearCounter) (c := commandByte .clear .cntr) rfl rfl rfl h hbs
  · exact exec_cmd_done (i := .clearStatus) (c := commandByte .clear .str) rfl rfl rfl h hbs

/-! ### O47 -/

theorem assemble_registerBytes_zero {n : Nat} (h : n ≤ 4) : assemble (registerBytes 0 n) = 0 := by
  apply BitVec.eq_of_toNat_eq
  rw [toNat_assemble_registerBytes 0 h]
  exact Nat.zero_mod _

/-- Settles O47: the clear leaves CNTR at 0 and the widths in agreement, and the bytes of 0 are read back. -/
theorem clearedCounterReadsZero : Obligations.ClearedCounterReadsZero := by
  intro d s t1 t2 hready hw h1 h2 ht2 hd
  have ht1 : t1.inTxn = false := not_inTxn_of_exec h2 ht2
  have hkept : t1.width = s.width := (onlyConfigureWritesWidth _ s t1 h1).1 (by simp) (by simp)
  have hw1 : t1.width = d.devW := hkept.trans hw.symm
  obtain ⟨_, f1, ⟨rfl, hclear⟩, hrun1⟩ := exec_ran h1 hready.2 ht1 (cmd_sends (commandByte .clear .cntr) s).giving_ok
  obtain ⟨_, f2, ⟨rs, rfl, hread⟩, hrun2⟩ := exec_ran h2 ht1 ht2 ((readWide_reads .cntr t1).giving Result.u32)
  have hrun := hrun1.trans hrun2
  rw [answersAsRefDev, hrun.framesOf_drop, ← List.append_nil f2] at hd
  obtain ⟨hrs, -⟩ := hread.captured (by rw [hw1]; exact (registerBytes_length _ _).symm)
    (hclear.deviceAgrees_append (onFrame_clearCntr d) hd)
  have hzero : assemble rs = 0 := by
    rw [hrs]
    exact assemble_registerBytes_zero (Nat.le_of_lt_succ d.devW.isLt)
  rw [hrun.results]
  simp [hzero]

end Sys2Proof.Machine
end

section
/-! PROOF. Configuration and counting enable (45_config.md R90 to R94): the width map, and composites that complete as one frame after another: O38, O39, O41 and O42. -/

namespace Sys2Proof.Machine

/-! ### O38 -/

/-- The formula of R90 on the four values of bits 1:0. -/
theorem widthOf_val_of_lt : ∀ m : Byte, m.toNat < 4 → (widthOf m).val = 4 - m.toNat := by decide

/-- Bits 7:2 play no part (R90). -/
theorem widthOf_and_widthMask (m : Byte) : widthOf m = widthOf (m &&& 0x03) :=
  widthOf_congr (by rw [BitVec.and_assoc, BitVec.and_self])

/-- Settles O38: the rows by evaluation, and the formula at bits 1:0, which are all that the width depends on. -/
theorem widthMap : Obligations.WidthMap := by
  refine ⟨rfl, rfl, rfl, rfl, fun m => ⟨?_, widthOf_and_widthMask m⟩⟩
  have hlow : (m &&& 0x03).toNat < 4 := by
    rw [BitVec.toNat_and]
    exact Nat.lt_succ_of_le Nat.and_le_right
  rw [widthOf_and_widthMask, widthOf_val_of_lt _ hlow]

/-! ### Pieces that complete, one after another -/

/-- The replies to `m + n` transfers are those of a frame of `m` bytes and those after it. -/
theorem State.nextReplies_split {s : State} {m n : Nat} {bs : List Byte} (h : s.nextReplies (m + n) = some bs) :
    s.nextReplies m = some (bs.take m) ∧ ∀ es, (s.afterFrame es m).nextReplies n = some (bs.drop m) := by
  obtain ⟨hfirst, hrest⟩ := State.repliesFrom_append h
  rw [Nat.zero_add] at hrest
  exact ⟨hfirst, fun es => (s.nextReplies_afterFrame es m n).trans hrest⟩

/-- A completed piece and a completed piece after it are a completed piece with the events of both. -/
theorem Flow.andThen_afterFrame {α β : Type} {s : State} {m : Flow α} {k : α → State → Flow β} {a : α} {b : β}
    {es es' : List Event} {n n' total : Nat} (hm : m = .done a (s.afterFrame es n))
    (hk : k a (s.afterFrame es n) = .done b ((s.afterFrame es n).afterFrame es' n')) (htotal : n + n' = total) :
    m.andThen k = .done b (s.afterFrame (es ++ es') total) := by
  rw [hm, Flow.andThen_done, hk, State.afterFrame_afterFrame, htotal]

/-- MDR0, then MDR1 (R91). -/
theorem configureFrames_done {s : State} {x0 x1 x2 x3 : Byte} (m0 m1 : Byte)
    (h : s.nextReplies 4 = some [x0, x1, x2, x3]) :
    configureFrames m0 m1 s = .done true (s.afterFrame
      (frameEvents s.csLine s.settings [0x88, m0] [x0, x1] ++
        frameEvents s.csLine s.settings [0x90, m1] [x2, x3]) 4) := by
  obtain ⟨h0, h1⟩ := State.nextReplies_split (m := 2) (n := 2) h
  exact Flow.andThen_afterFrame (memWrite_done (n := 1) (bytes := [m0]) .mdr0 h0)
    (memWrite_done (n := 1) (bytes := [m1]) .mdr1 (h1 _)) rfl

/-- A read of MDR1 that captures `v`, and a write back of `f v` (R92, R93). -/
theorem readModifyWrite_done {s : State} {x0 v x2 x3 : Byte} (f : Byte → Byte)
    (h : s.nextReplies 4 = some [x0, v, x2, x3]) :
    ((readMode1 s).andThen fun v t => (writeMode1 (f v) t).giving fun _ => ())
      = .done () (s.afterFrame
        (frameEvents s.csLine s.settings [0x50, 0x00] [x0, v] ++
          frameEvents s.csLine s.settings [0x90, f v] [x2, x3]) 4) := by
  obtain ⟨h0, h1⟩ := State.nextReplies_split (m := 2) (n := 2) h
  have hread : readMode1 s
      = .done v (s.afterFrame (frameEvents s.csLine s.settings [0x50, 0x00] [x0, v]) 2) :=
    congrArg (Flow.giving · firstByte) (memRead_done (n := 1) .mdr1 h0)
  exact Flow.andThen_afterFrame hread
    (congrArg (Flow.giving · fun _ => ()) (memWrite_done (n := 1) (bytes := [f v]) .mdr1 (h1 _))) rfl

/-! ### O39 -/

/-- Settles O39: the two frames, then the width. -/
theorem configureCompletes : Obligations.ConfigureCompletes := by
  intro s m0 m1 x0 x1 x2 x3 h hbs
  rw [exec_runs rfl h.1 h.2, bodyOf_configure, configureFrames_done m0 m1 hbs, Flow.andThen_done]
  rfl

/-! ### O41 -/

/-- An operation whose body reads MDR1 and writes it back completes with these two frames. -/
theorem exec_readModifyWrite_done {i : Instr} {s : State} {x0 v x2 x3 : Byte} (f : Byte → Byte)
    (hw : i.wellFormed = true) (hp : phaseOf i = .active)
    (hbody : bodyOf i s = ((readMode1 s).andThen fun v t => (writeMode1 (f v) t).giving fun _ => ()).giving
      fun _ => .noValue)
    (h : s.Ready) (hbs : s.nextReplies 4 = some [x0, v, x2, x3]) :
    exec i s = .next (s.completed
      (frameEvents s.csLine s.settings [0x50, 0x00] [x0, v] ++
        frameEvents s.csLine s.settings [0x90, f v] [x2, x3]) 4 .noValue) := by
  rw [exec_runs hw (h.1.trans hp.symm) h.2, hbody, readModifyWrite_done f hbs, Flow.giving_done,
    State.finish_afterFrame]

/-- ENABLE_MASK is bit 2 (00_scope.md R7). -/
theorem enableMask_getLsbD : ∀ k < 8, Config.enableMask.getLsbD k = decide (k = 2) := by decide

theorem countingEnabled_getLsbD (v : Byte) {k : Nat} (hk : k < 8) :
    (countingEnabled v).getLsbD k = if k = 2 then false else v.getLsbD k := by
  rw [countingEnabled, BitVec.getLsbD_and, BitVec.getLsbD_not, enableMask_getLsbD k hk]
  by_cases hbit : k = 2 <;> simp [hbit, hk]

theorem countingDisabled_getLsbD (v : Byte) {k : Nat} (hk : k < 8) :
    (countingDisabled v).getLsbD k = if k = 2 then true else v.getLsbD k := by
  rw [countingDisabled, BitVec.getLsbD_or, enableMask_getLsbD k hk]
  by_cases hbit : k = 2 <;> simp [hbit]

/-- Settles O41: both read MDR1 and write it back, through `countingEnabled` and `countingDisabled`, which change bit 2
only. -/
theorem enableDisableComplete : Obligations.EnableDisableComplete := by
  refine ⟨fun s x0 v x2 x3 h hbs => ⟨?_, ?_⟩, fun v k hk =>
    ⟨countingEnabled_getLsbD v hk, countingDisabled_getLsbD v hk⟩⟩
  · exact exec_readModifyWrite_done (i := .enable) countingEnabled rfl rfl rfl h hbs
  · exact exec_readModifyWrite_done (i := .disable) countingDisabled rfl rfl rfl h hbs

/-! ### O42 -/

/-- The frames of defaultConfiguration after its configure (R94). -/
theorem defaultTail_done {s : State} {x4 x5 x6 x7 x8 x9 x10 x11 v x13 x14 : Byte}
    (h : s.nextReplies 11 = some [x4, x5, x6, x7, x8, x9, x10, x11, v, x13, x14]) :
    defaultTail 4 s = .done () (s.afterFrame
      (frameEvents s.csLine s.settings [0x98, 0x00, 0x00, 0x00, 0x00] [x4, x5, x6, x7, x8] ++
        (frameEvents s.csLine s.settings [0x20] [x9] ++
          (frameEvents s.csLine s.settings [0xE0] [x10] ++
            (frameEvents s.csLine s.settings [0x50, 0x00] [x11, v] ++
              frameEvents s.csLine s.settings [0x90, v &&& 0xFB] [x13, x14])))) 11) := by
  obtain ⟨hdtr, hrest⟩ := State.nextReplies_split (m := 5) (n := 6) h
  obtain ⟨hclear, hrest⟩ := State.nextReplies_split (m := 1) (n := 5) (hrest _)
  obtain ⟨hload, henable⟩ := State.nextReplies_split (m := 1) (n := 4) (hrest _)
  exact Flow.andThen_afterFrame (memWrite_done (n := 4) (bytes := dataBuffer 0 0 0 0) .dtr hdtr)
    (Flow.andThen_afterFrame (cmd_done (commandByte .clear .cntr) hclear)
      (Flow.andThen_afterFrame (cmd_done (commandByte .load .cntr) hload)
        (readModifyWrite_done countingEnabled (henable _)) rfl) rfl) rfl

/-- Settles O42: configure's two frames with the default settings, then the other five, which neither read nor write the
width it has stored. -/
theorem defaultConfigurationCompletes : Obligations.DefaultConfigurationCompletes := by
  intro s x0 x1 x2 x3 x4 x5 x6 x7 x8 x9 x10 x11 v x13 x14 h hbs
  obtain ⟨hconfigure, htail⟩ := State.nextReplies_split (m := 4) (n := 11) hbs
  rw [exec_runs rfl h.1 h.2, bodyOf_defaultConfiguration, configureFrames_done _ _ hconfigure,
    Flow.andThen_done, defaultTail_widthFree, defaultTail_done (htail _), State.afterFrame_afterFrame]
  simp only [List.append_assoc]
  rfl

end Sys2Proof.Machine
end

section
/-! PROOF. Admission by phase (46_lifecycle.md R97) and the two lifecycle operations (R95, R96): O18, O19, O43 and O44. -/

namespace Sys2Proof.Machine

/-! ### O18, O19 -/

theorem exec_refused {i : Instr} {s : State} (hw : i.wellFormed = true) (hp : s.phase ≠ phaseOf i) :
    exec i s = .refused (.outsidePhase s.phase) := by
  rw [exec_eq, if_pos hw, admittedIn_refused hp]

theorem phaseOf_of_ne_beginOp {i : Instr} (hb : i ≠ .beginOp) : phaseOf i = .active := if_neg hb

/-- Settles O18: admission examines the phase before anything runs, and the phase of begin is another than that of the
others. -/
theorem outsidePhaseIsRefused : Obligations.OutsidePhaseIsRefused := by
  refine fun i s hw => ⟨fun hb hp => ?_, fun hb hp => ?_⟩
  · exact exec_refused hw (phaseOf_of_ne_beginOp hb ▸ hp)
  · subst hb
    exact exec_refused hw hp

/-- Settles O19: a stuck handle answers its own state, any other the state that the operation's body leaves. -/
theorem admittedOperationRuns : Obligations.AdmittedOperationRuns := by
  intro i s hw hp
  cases hi : s.inTxn with
  | true => exact ⟨_, exec_of_stuck hw hp hi⟩
  | false => exact ⟨_, exec_runs hw hp hi⟩

/-! ### O43 -/

/-- Settles O43: the body is the three calls of R95, whose events follow one another. -/
theorem beginCompletes : Obligations.BeginCompletes := by
  intro s hp hi
  have hevents : (csDrive .high (pinOutput (busBegin s))).events
      = s.events ++ [.busClaim, .pinOut s.csLine, .cs s.csLine .high] := by
    simp [csDrive, pinOutput, busBegin]
  rw [exec_runs rfl hp hi, ← hevents]
  rfl

/-! ### O44 -/

/-- The three frames of end, before it releases the bus and the pin (R96). -/
def endFrames (s : State) : Flow Unit := (clearCounter s).andThen fun _ t => disable t

theorem endHandle_eq (s : State) :
    endHandle s = (endFrames s).andThen fun _ t => .done () ((pinRelease (busEnd t)).setPhase .ended) :=
  (Flow.andThen_andThen ..).symm

/-- CNTR is cleared, then MDR1 is read and written back with counting disabled (R96). -/
theorem endFrames_done {s : State} {x0 x1 v x3 x4 : Byte} (h : s.nextReplies 5 = some [x0, x1, v, x3, x4]) :
    endFrames s = .done () (s.afterFrame
      (frameEvents s.csLine s.settings [0x20] [x0] ++
        (frameEvents s.csLine s.settings [0x50, 0x00] [x1, v] ++
          frameEvents s.csLine s.settings [0x90, v ||| 0x04] [x3, x4])) 5) := by
  obtain ⟨hclear, hdisable⟩ := State.nextReplies_split (m := 1) (n := 4) h
  exact Flow.andThen_afterFrame (cmd_done (commandByte .clear .cntr) hclear)
    (readModifyWrite_done countingDisabled (hdisable _)) rfl

/-- The state that end leaves, from that of its last frame: the release shows two events, outside frames. -/
theorem finish_release_afterFrame (s : State) (es : List Event) (n : Nat) (r : Result) :
    (Flow.done r ((pinRelease (busEnd (s.afterFrame es n))).setPhase .ended)).finish
      = { s.completed (es ++ [.busRelease, .pinHiZ s.csLine]) n r with
          bus := .unclaimed
          cs := .undriven
          phase := .ended } := by
  have hevents : (pinRelease (busEnd (s.afterFrame es n))).events
      = s.events ++ (es ++ [.busRelease, .pinHiZ s.csLine]) := by
    simp [pinRelease, busEnd, State.afterFrame, State.moved]
  rw [State.completed, ← hevents]
  rfl

/-- Settles O44: the frames are those of clearCounter and disable, and the release after them leaves the width alone. -/
theorem endCompletes : Obligations.EndCompletes := by
  intro s x0 x1 v x3 x4 h hbs
  have hbody : bodyOf .endOp s = (endHandle s).giving fun _ => .noValue := rfl
  rw [exec_runs rfl h.1 h.2, hbody, endHandle_eq, endFrames_done hbs, Flow.andThen_done, Flow.giving_done,
    finish_release_afterFrame]
  simp only [List.append_assoc]

end Sys2Proof.Machine
end

section
/-! PROOF. What a step does where nothing is presented, where the handle is stuck and where a table word is presented (10_state.md R20, 40_framing.md R72), and what exec answers to a term that is no operand (R66): O13, O14, O15 and O20. -/

namespace Sys2Proof.Machine

/-! ### O13 -/

theorem openedHandle_ready (s : State) : (openedHandle s).Ready := by
  unfold openedHandle
  split
  next h => exact h
  next => exact ⟨rfl, rfl⟩

theorem openedHandle_of_ready {s : State} (h : s.Ready) : openedHandle s = s := if_pos h

/-- Opening a handle leaves the width and the environment's part alone. -/
theorem openedHandle_frame (s : State) :
    (openedHandle s).width = s.width ∧ (openedHandle s).replies = s.replies ∧
      (openedHandle s).pending = s.pending := by
  unfold openedHandle
  split <;> exact ⟨rfl, rfl, rfl⟩

theorem withFetchWord_of_decoded {nbits w : Nat} {i : Instr} (h : decodeTableWord nbits w = some i) (s : State) :
    s.withFetchWord nbits w = present i (openedHandle s) := by
  rw [State.withFetchWord, h]

/-- An operation presented to a handle that is not stuck is the one that runs. -/
theorem step_present {s : State} (h : s.inTxn = false) (i : Instr) : step (present i s) = exec i s :=
  stepRunsPresentedOperation (present i s) i s.pending h rfl

/-- Settles O13: the decoded operation is presented to the opened handle, which is Ready. -/
theorem stepRunsDecodedWord : Obligations.StepRunsDecodedWord := by
  intro s nbits w i hdecode
  have hready := openedHandle_ready s
  obtain ⟨hwidth, hreplies, hpending⟩ := openedHandle_frame s
  refine ⟨?_, hready, hwidth, hreplies, hpending, openedHandle_of_ready⟩
  rw [withFetchWord_of_decoded hdecode, step_present hready.2]

/-! ### O14, O15 -/

/-- Settles O14: no operation can be taken from an empty interface. -/
theorem idleStepChangesNothing : Obligations.IdleStepChangesNothing := by
  intro s hpending
  have htake : takeOperation s = none := by simp [takeOperation, hpending]
  simp [step, htake]

/-- Settles O15: of the two ways to a next state, a stuck handle leaves only the one that answers its own. -/
theorem stalledHandleIsStuck : Obligations.StalledHandleIsStuck := by
  refine fun s hi => ⟨step_of_stuck hi, fun i t hexec => ?_⟩
  obtain ⟨-, -, ⟨-, ht⟩ | ⟨hfree, -⟩⟩ := exec_next hexec
  · exact ht
  · exact absurd (hi.symm.trans hfree) Bool.noConfusion

/-! ### O20 -/

/-- Settles O20: the lengths are examined before the phase and before anything runs. -/
theorem mismatchedBuffersStop : Obligations.MismatchedBuffersStop := by
  intro i s hw
  rw [exec_eq, if_neg (by simp [hw])]

end Sys2Proof.Machine
end

section
/-! PROOF. The one error, a transfer with an absent buffer (60_exceptions.md R99, R104, R105), and the multi-byte operations before the first configure (R100): O26 and O33. -/

namespace Sys2Proof.Machine

/-! ### No other operation fails as a transfer does -/

/-- Only a transfer answers as a transfer does (30_encoding.md R64). -/
theorem isTransfer_of_resultFits {i : Instr} {ok : Bool} {rest : List Byte}
    (h : resultFits i (.transfer ok rest) = true) : ∃ wbuf wLen rbuf rLen, i = .transfer wbuf wLen rbuf rLen := by
  cases i with
  | transfer wbuf wLen rbuf rLen => exact ⟨wbuf, wLen, rbuf, rLen, rfl⟩
  | _ => exact absurd h Bool.false_ne_true

/-- The piece uses up no unspecified read buffer, whether it completes or is stuck. -/
def Flow.KeepsStale {α : Type} (m : Flow α) (s : State) : Prop :=
  m.Ends (fun _ t => t.staleDraws = s.staleDraws) fun t => t.staleDraws = s.staleDraws

namespace Flow.KeepsStale
variable {α β : Type} {m : Flow α} {s : State}

theorem giving (h : m.KeepsStale s) (f : α → β) : (m.giving f).KeepsStale s := Flow.ends_giving h

theorem andThen {k : α → State → Flow β} (h : m.KeepsStale s) (hk : ∀ a t, (k a t).KeepsStale t) :
    (m.andThen k).KeepsStale s :=
  Flow.ends_andThen h fun a t ht =>
    Flow.ends_mono (hk a t) (fun _ _ hu => hu.trans ht) fun _ hu => hu.trans ht

theorem finish {m : Flow Result} (h : m.KeepsStale s) : m.finish.staleDraws = s.staleDraws := by
  cases m <;> exact h

end Flow.KeepsStale

section
variable (s : State)

theorem txn_present_keepsStale (w : List Byte) (n : Nat) : (txn (some w) (some n) s).KeepsStale s :=
  Flow.KeepsStale.giving (frame_ends (fun _ _ => rfl) fun _ _ _ _ _ => rfl) _

theorem cmd_keepsStale (c : Byte) : (cmd c s).KeepsStale s := (txn_present_keepsStale s _ _).giving _

theorem memWrite_keepsStale (r : Reg) (n : Nat) (bytes : List Byte) : (memWrite r n bytes s).KeepsStale s :=
  (txn_present_keepsStale s _ _).giving _

theorem memRead_keepsStale (r : Reg) (n : Nat) : (memRead r n s).KeepsStale s :=
  (txn_present_keepsStale s _ _).giving _

theorem readByte_keepsStale (r : Reg) : (readByte r s).KeepsStale s := (memRead_keepsStale s _ _).giving _

theorem readWide_keepsStale (r : Reg) : (readWide r s).KeepsStale s := (memRead_keepsStale s _ _).giving _

/-- A read of MDR1 and a write back, as enable and disable do (45_config.md R92, R93). -/
theorem readModifyWrite_keepsStale (f : Byte → Byte) :
    ((readMode1 s).andThen fun v t => (writeMode1 (f v) t).giving fun _ => ()).KeepsStale s :=
  (readByte_keepsStale s _).andThen fun _ t => (memWrite_keepsStale t _ _ _).giving _

theorem configure_keepsStale (m0 m1 : Byte) : (configure m0 m1 s).KeepsStale s :=
  (memWrite_keepsStale s _ _ _).andThen fun _ t => (memWrite_keepsStale t _ _ _).andThen fun _ _ => rfl

theorem defaultConfiguration_keepsStale : (defaultConfiguration s).KeepsStale s :=
  (configure_keepsStale s _ _).andThen fun _ t => (memWrite_keepsStale t _ _ _).andThen fun _ t =>
    (cmd_keepsStale t _).andThen fun _ t => (cmd_keepsStale t _).andThen fun _ t =>
      readModifyWrite_keepsStale t countingEnabled

theorem endHandle_keepsStale : (endHandle s).KeepsStale s :=
  (cmd_keepsStale s _).andThen fun _ t => (readModifyWrite_keepsStale t countingDisabled).andThen fun _ _ => rfl

/-- Every operation but the transfer gives both buffers to each of its frames (60_exceptions.md R104). -/
theorem bodyOf_keepsStale {i : Instr} (hi : ∀ wbuf wLen rbuf rLen, i ≠ .transfer wbuf wLen rbuf rLen) :
    (bodyOf i s).KeepsStale s := by
  cases i with
  | transfer => exact (hi _ _ _ _ rfl).elim
  | writeMode0 | writeMode1 | writeDataRegister | clearMode0 | clearMode1 =>
    exact (memWrite_keepsStale s _ _ _).giving _
  | loadCounterFromData | loadOutputFromCounter | clearCounter | clearStatus => exact (cmd_keepsStale s _).giving _
  | readMode0 | readMode1 | readStatus => exact (readByte_keepsStale s _).giving _
  | readOutputRegister | readDataRegister => exact ((readWide_keepsStale s _).giving _).giving _
  | readCounter => exact (readWide_keepsStale s _).giving _
  | configure m0 m1 => exact (configure_keepsStale s m0 m1).giving _
  | enable => exact (readModifyWrite_keepsStale s countingEnabled).giving _
  | disable => exact (readModifyWrite_keepsStale s countingDisabled).giving _
  | defaultConfiguration => exact (defaultConfiguration_keepsStale s).giving _
  | beginOp => exact rfl
  | endOp => exact (endHandle_keepsStale s).giving _

end

theorem exec_keeps_staleDraws {i : Instr} {s t : State}
    (hi : ∀ wbuf wLen rbuf rLen, i ≠ .transfer wbuf wLen rbuf rLen) (h : exec i s = .next t) :
    t.staleDraws = s.staleDraws := by
  obtain ⟨-, -, ⟨-, rfl⟩ | ⟨-, rfl⟩⟩ := exec_next h
  · rfl
  · exact (bodyOf_keepsStale s hi).finish

/-- Every result that an operation adds is of its kind (30_encoding.md R64). -/
theorem resultFits_of_mem_drop {i : Instr} {s t : State} {r : Result} (h : exec i s = .next t)
    (hr : r ∈ t.results.drop s.results.length) : resultFits i r = true := by
  obtain ⟨-, rfl⟩ | ⟨r', u, hfits, hsu, -, rfl⟩ | ⟨hst, -⟩ := exec_cases h
  · simp at hr
  · obtain rfl : r = r' := by simpa [hsu.results] using hr
    exact hfits
  · simp [hst.results] at hr

/-! ### O26 -/

/-- A transfer with a buffer absent completes at once, with the one error (60_exceptions.md R99, R105). -/
theorem exec_transfer_absent {s : State} {wbuf rbuf : Option (List Byte)} {wLen rLen : Nat} (h : s.Ready)
    (hw : (Instr.transfer wbuf wLen rbuf rLen).wellFormed = true) (habs : wbuf = none ∨ rbuf = none) :
    exec (.transfer wbuf wLen rbuf rLen) s = .next { s.takeStale with
      results := s.results ++ [.transfer false (staleBuffer ((rbuf.map List.length).getD 0) s)] } := by
  have habs' : wbuf = none ∨ rbuf.map List.length = none := by rwa [Option.map_eq_none_iff]
  rw [exec_runs hw h.1 h.2, bodyOf, transfer, txn_absent habs']
  rfl

/-- Settles O26: the failed transfer leaves only its result and a used-up free value; of any other operation the results
are of another kind, and none of its frames lacks a buffer. -/
theorem absentBufferFails : Obligations.AbsentBufferFails := by
  refine ⟨fun s wbuf rbuf wLen rLen h hw habs => ⟨_, exec_transfer_absent h hw habs⟩,
    fun i s t rest hi h => ⟨fun hmem => ?_, exec_keeps_staleDraws hi h⟩⟩
  obtain ⟨wbuf, wLen, rbuf, rLen, htransfer⟩ := isTransfer_of_resultFits (resultFits_of_mem_drop h hmem)
  exact hi wbuf wLen rbuf rLen htransfer

/-! ### O33 -/

/-- Settles O33: the completed operations at width 0, where no payload byte is left and the assembled value is 0. -/
theorem unconfiguredWidthMovesNothing : Obligations.UnconfiguredWidthMovesNothing := by
  intro s x b0 b1 b2 b3 h hwidth hbs
  have hbs' : s.nextReplies (1 + s.width.val) = some [x] := by rwa [hwidth]
  have hwrite := writeDataRegisterCompletes s b0 b1 b2 b3 [x] h hbs'
  have hreads := multiByteReadsComplete s x [] h hbs'
  rw [hwidth] at hwrite hreads
  exact ⟨hwrite, hreads⟩

end Sys2Proof.Machine
end
